-- ==== Sys2Proof/Word.lean ====
section
/-! DEFINITION. The word types of the engine: command words, bytes and argument registers. -/

namespace Sys2Proof

/-- A 32-bit command word, and the width of RESULT (R21, R90). -/
abbrev Word := BitVec 32

/-- A byte of one of the storage spaces (R60). -/
abbrev Byte := BitVec 8

/-- A 16-bit argument register A0..A3 (R21). -/
abbrev Half := BitVec 16

end Sys2Proof
end

