-- ==== Sys2Proof/Config.lean ====
section
/-! DEFINITION. The implementation parameters of 00_scope.md R6 and R7 and the quantities derived from them (R8). -/

namespace Sys2Proof

/-- TICK_WIDTH, one of 8, 16 and 32 (R7). -/
inductive TickWidth where
  | w8
  | w16
  | w32
deriving DecidableEq, Repr

/-- The width in bits. -/
def TickWidth.bits : TickWidth → Nat
  | .w8 => 8
  | .w16 => 16
  | .w32 => 32

/-- The number of byte lanes, TICK_WIDTH/8 (R95). -/
def TickWidth.lanes : TickWidth → Nat
  | .w8 => 1
  | .w16 => 2
  | .w32 => 4

/-- NOR_VARIANT (R7, R126). -/
inductive NorVariant where
  | doc
  | library
deriving DecidableEq, Repr

/-- GLYPH_BIT_ORDER (R7, R148). -/
inductive GlyphBitOrder where
  | msbTop
  | lsbTop
deriving DecidableEq, Repr

/-- GLYPH_LAYOUT (R7, R147). -/
inductive GlyphLayout where
  | columnMajor
  | byteRowMajor
deriving DecidableEq, Repr

/-- The parameters of R7, fixed for the lifetime of the block. FONT_ROM_SIZE is the length of `fontRom`. -/
structure Config where
  wp : Nat
  hp : Nat
  tickWidth : TickWidth
  tickInc : Nat
  norVariant : NorVariant
  glyphBitOrder : GlyphBitOrder
  glyphLayout : GlyphLayout
  marqueeFastShift : Bool
  fontRom : List Byte
deriving DecidableEq, Repr

/-- PW: panel width in pixels (R6). -/
def panelWidth : Nat := 32
/-- PH: panel height in pixels (R6). -/
def panelHeight : Nat := 16
/-- N_EDGE: edge sources and event flags (R6). -/
def nEdge : Nat := 2
/-- N_QUARTER: quarter bands and scan phases (R6). -/
def nQuarter : Nat := 4
/-- TEXT_SIZE (R6). -/
def textSize : Nat := 256
/-- MARQUEE_MAX (R6). -/
def marqueeMax : Nat := 255
/-- The largest FONT_ROM_SIZE (R7). -/
def fontRomMax : Nat := 65536
/-- The largest number of panels (R7, D5). -/
def panelsMax : Nat := 32

namespace Config

/-- T: the total panel count (R8). -/
def panels (c : Config) : Nat := c.wp * c.hp
/-- WT: the grid width in pixels (R8). -/
def gridWidth (c : Config) : Nat := panelWidth * c.wp
/-- HT: the grid height in pixels (R8). -/
def gridHeight (c : Config) : Nat := panelHeight * c.hp
/-- ROWB: the bytes in one framebuffer row (R8). -/
def rowBytes (c : Config) : Nat := 4 * c.panels
/-- FB_BYTES: the framebuffer size (R8). -/
def fbBytes (c : Config) : Nat := 64 * c.panels
/-- QB: the quarter-band size and stride (R8, R65). -/
def bandBytes (c : Config) : Nat := 16 * c.panels
/-- GROWB: the bytes of one global pixel row inside a framebuffer row (R8). -/
def globalRowBytes (c : Config) : Nat := 4 * c.wp
/-- FONT_ROM_SIZE (R7). -/
def fontRomSize (c : Config) : Nat := c.fontRom.length

/-- The ranges and the constraint of R7. A configuration outside them is outside the spec and a model must reject it
(I12, I13). -/
def valid (c : Config) : Bool :=
  decide (1 ≤ c.wp) && decide (1 ≤ c.hp) && decide (c.panels ≤ panelsMax) &&
  decide (1 ≤ c.tickInc) && decide (c.tickInc < 2 ^ c.tickWidth.bits) &&
  decide (c.fontRomSize ≤ fontRomMax)

/-- The configuration of State.reset. DESIGN CHOICE (log entry 2, unsafe): WP = HP = 1, TICK_INC = 1 and the spec's
font F1 (R151) in FONT_ROM, all OPEN in R7; the other parameters at the defaults of R7. No statement rests on it. -/
def standard : Config where
  wp := 1
  hp := 1
  tickWidth := .w32
  tickInc := 1
  norVariant := .doc
  glyphBitOrder := .msbTop
  glyphLayout := .columnMajor
  marqueeFastShift := false
  fontRom := [0x00#8, 0x00#8, 0x05#8, 0x08#8, 0x41#8, 0x01#8, 0x7E#8, 0x90#8, 0x90#8, 0x90#8, 0x7E#8]

end Config

end Sys2Proof
end

