-- ==== Sys2Proof/Syntax.lean ====
section
/-! DEFINITION. The twenty commands of 30_encoding.md R97, one constructor per row of spec/opcode_table.json. -/

namespace Sys2Proof

/-- The five compositing modes (R92). -/
inductive Mode where
  | normal
  | inverse
  | toggle
  | or
  | nor
deriving DecidableEq, Repr

/-- The four test-pattern kinds (R93). -/
inductive TestKind where
  | checker0
  | checker1
  | stripe0
  | stripe1
deriving DecidableEq, Repr

/-- The three interrupt sources (R94, R287). -/
inductive Source where
  | timer
  | edge0
  | edge1
deriving DecidableEq, Repr

/-- A command. The fields are the ones its opcode uses (R97): the mode, the value bit V (true is 1), the kind, the
source, and the byte field B8 as a code point `ch`, a length `len` or an index `idx` (R95). -/
inductive Instr where
  | writePixel (mode : Mode) (v : Bool)
  | clear (v : Bool)
  | selectFont
  | charWidth (ch : Byte)
  | drawChar (mode : Mode) (ch : Byte)
  | textWrite (ch : Byte)
  | drawString (mode : Mode) (len : Byte)
  | drawLine (mode : Mode)
  | drawBox (mode : Mode)
  | drawFilledBox (mode : Mode)
  | drawCircle (mode : Mode)
  | drawTestPattern (kind : TestKind)
  | drawMarquee (len : Byte)
  | stepMarquee
  | tickRead
  | tickReadByte (idx : Byte)
  | ieSaveDisable (src : Source)
  | ieRestore (src : Source)
  | flagRead (idx : Byte)
  | flagClear (idx : Byte)
deriving DecidableEq, Repr

end Sys2Proof
end

