-- ==== Sys2Proof/WellFormed.lean ====
section
/-! DEFINITION. The checks a command must pass beyond its syntax: the index ranges of 30_encoding.md R95. -/

namespace Sys2Proof

/-- The index ranges of R95: IDX below TICK_WIDTH/8 for TICK_READ_BYTE, below N_EDGE for FLAG_READ and FLAG_CLEAR.
Every other field of a command is in range by its type. -/
def Instr.wf (tw : TickWidth) : Instr → Bool
  | .tickReadByte idx => decide (idx.toNat < tw.lanes)
  | .flagRead idx => decide (idx.toNat < nEdge)
  | .flagClear idx => decide (idx.toNat < nEdge)
  | .writePixel _ _ => true
  | .clear _ => true
  | .selectFont => true
  | .charWidth _ => true
  | .drawChar _ _ => true
  | .textWrite _ => true
  | .drawString _ _ => true
  | .drawLine _ => true
  | .drawBox _ => true
  | .drawFilledBox _ => true
  | .drawCircle _ => true
  | .drawTestPattern _ => true
  | .drawMarquee _ => true
  | .stepMarquee => true
  | .tickRead => true
  | .ieSaveDisable _ => true
  | .ieRestore _ => true

end Sys2Proof
end

