-- ==== Sys2Proof/Decode.lean ====
section
/-! DEFINITION. The command word: its fields (R91), the decoder (R97 to R100), total on every word, and the encoder. -/

namespace Sys2Proof

/-- The seven fields of a command word (R91). -/
structure Fields where
  op : BitVec 8
  mode : BitVec 3
  v : BitVec 1
  kind : BitVec 2
  src : BitVec 2
  b8 : BitVec 8
  rsv : BitVec 8
deriving DecidableEq, Repr

/-- The fields of a word, at the bit positions of R91. -/
def Fields.unpack (w : Word) : Fields where
  op := w.extractLsb' 0 8
  mode := w.extractLsb' 8 3
  v := w.extractLsb' 11 1
  kind := w.extractLsb' 12 2
  src := w.extractLsb' 14 2
  b8 := w.extractLsb' 16 8
  rsv := w.extractLsb' 24 8

/-- The word with these fields (R91). -/
def Fields.pack (f : Fields) : Word :=
  f.rsv ++ f.b8 ++ f.src ++ f.kind ++ f.v ++ f.mode ++ f.op

/-- MODE 0..4; 5..7 are reserved (R92). -/
def Mode.ofBits (b : BitVec 3) : Option Mode :=
  match b.toNat with
  | 0 => some .normal
  | 1 => some .inverse
  | 2 => some .toggle
  | 3 => some .or
  | 4 => some .nor
  | _ => none

/-- The number of a mode (R92). -/
def Mode.toBits : Mode → BitVec 3
  | .normal => 0#3
  | .inverse => 1#3
  | .toggle => 2#3
  | .or => 3#3
  | .nor => 4#3

/-- KIND 0..3 (R93). -/
def TestKind.ofBits (b : BitVec 2) : TestKind :=
  match b.toNat with
  | 0 => .checker0
  | 1 => .checker1
  | 2 => .stripe0
  | _ => .stripe1

/-- The number of a test-pattern kind (R93). -/
def TestKind.toBits : TestKind → BitVec 2
  | .checker0 => 0#2
  | .checker1 => 1#2
  | .stripe0 => 2#2
  | .stripe1 => 3#2

/-- SRC 0..2; 3 is reserved (R94). -/
def Source.ofBits (b : BitVec 2) : Option Source :=
  match b.toNat with
  | 0 => some .timer
  | 1 => some .edge0
  | 2 => some .edge1
  | _ => none

/-- The number of a source (R94). -/
def Source.toBits : Source → BitVec 2
  | .timer => 0#2
  | .edge0 => 1#2
  | .edge1 => 2#2

/-- The value of a one-bit field. -/
def bitOf (b : BitVec 1) : Bool := b == 1#1

/-- A one-bit field with this value. -/
def bitTo (v : Bool) : BitVec 1 := if v then 1#1 else 0#1

/-- The field MODE is not used and is 0 (R98). -/
def Fields.noMode (f : Fields) : Bool := f.mode == 0#3
/-- The field V is not used and is 0 (R98). -/
def Fields.noV (f : Fields) : Bool := f.v == 0#1
/-- The field KIND is not used and is 0 (R98). -/
def Fields.noKind (f : Fields) : Bool := f.kind == 0#2
/-- The field SRC is not used and is 0 (R98). -/
def Fields.noSrc (f : Fields) : Bool := f.src == 0#2
/-- The field B8 is not used and is 0 (R98). -/
def Fields.noB8 (f : Fields) : Bool := f.b8 == 0#8

/-- The command when the check holds, no command otherwise. -/
def onlyIf (check : Bool) (i : Option Instr) : Option Instr := if check then i else none

/-- Decoding the fields of a word (R100): the row of R97 that OP selects, every field that row does not use 0 (R98), then
the reserved values of MODE and SRC. The index ranges follow in `decode`. -/
def decodeFields (f : Fields) : Option Instr :=
  if f.rsv ≠ 0#8 then none else
  match f.op.toNat with
  | 0x01 => onlyIf (f.noKind && f.noSrc && f.noB8) ((Mode.ofBits f.mode).map fun m => .writePixel m (bitOf f.v))
  | 0x02 => onlyIf (f.noMode && f.noKind && f.noSrc && f.noB8) (some (.clear (bitOf f.v)))
  | 0x03 => onlyIf (f.noMode && f.noV && f.noKind && f.noSrc && f.noB8) (some .selectFont)
  | 0x04 => onlyIf (f.noMode && f.noV && f.noKind && f.noSrc) (some (.charWidth f.b8))
  | 0x05 => onlyIf (f.noV && f.noKind && f.noSrc) ((Mode.ofBits f.mode).map fun m => .drawChar m f.b8)
  | 0x06 => onlyIf (f.noMode && f.noV && f.noKind && f.noSrc) (some (.textWrite f.b8))
  | 0x07 => onlyIf (f.noV && f.noKind && f.noSrc) ((Mode.ofBits f.mode).map fun m => .drawString m f.b8)
  | 0x08 => onlyIf (f.noV && f.noKind && f.noSrc && f.noB8) ((Mode.ofBits f.mode).map .drawLine)
  | 0x09 => onlyIf (f.noV && f.noKind && f.noSrc && f.noB8) ((Mode.ofBits f.mode).map .drawBox)
  | 0x0A => onlyIf (f.noV && f.noKind && f.noSrc && f.noB8) ((Mode.ofBits f.mode).map .drawFilledBox)
  | 0x0B => onlyIf (f.noV && f.noKind && f.noSrc && f.noB8) ((Mode.ofBits f.mode).map .drawCircle)
  | 0x0C => onlyIf (f.noMode && f.noV && f.noSrc && f.noB8) (some (.drawTestPattern (TestKind.ofBits f.kind)))
  | 0x0D => onlyIf (f.noMode && f.noV && f.noKind && f.noSrc) (some (.drawMarquee f.b8))
  | 0x0E => onlyIf (f.noMode && f.noV && f.noKind && f.noSrc && f.noB8) (some .stepMarquee)
  | 0x10 => onlyIf (f.noMode && f.noV && f.noKind && f.noSrc && f.noB8) (some .tickRead)
  | 0x11 => onlyIf (f.noMode && f.noV && f.noKind && f.noSrc) (some (.tickReadByte f.b8))
  | 0x12 => onlyIf (f.noMode && f.noV && f.noKind && f.noB8) ((Source.ofBits f.src).map .ieSaveDisable)
  | 0x13 => onlyIf (f.noMode && f.noV && f.noKind && f.noB8) ((Source.ofBits f.src).map .ieRestore)
  | 0x14 => onlyIf (f.noMode && f.noV && f.noKind && f.noSrc) (some (.flagRead f.b8))
  | 0x15 => onlyIf (f.noMode && f.noV && f.noKind && f.noSrc) (some (.flagClear f.b8))
  | _ => none

/-- Decode (R100), total on all 2^32 words; `none` is an illegal word (R99). -/
def decode (tw : TickWidth) (w : Word) : Option Instr :=
  match decodeFields (Fields.unpack w) with
  | some i => if i.wf tw then some i else none
  | none => none

/-- The fields of a command's word, from the columns of R97: every field the command does not use is 0 (R98). -/
def encodeFields : Instr → Fields
  | .writePixel m v => ⟨0x01#8, m.toBits, bitTo v, 0#2, 0#2, 0#8, 0#8⟩
  | .clear v => ⟨0x02#8, 0#3, bitTo v, 0#2, 0#2, 0#8, 0#8⟩
  | .selectFont => ⟨0x03#8, 0#3, 0#1, 0#2, 0#2, 0#8, 0#8⟩
  | .charWidth ch => ⟨0x04#8, 0#3, 0#1, 0#2, 0#2, ch, 0#8⟩
  | .drawChar m ch => ⟨0x05#8, m.toBits, 0#1, 0#2, 0#2, ch, 0#8⟩
  | .textWrite ch => ⟨0x06#8, 0#3, 0#1, 0#2, 0#2, ch, 0#8⟩
  | .drawString m len => ⟨0x07#8, m.toBits, 0#1, 0#2, 0#2, len, 0#8⟩
  | .drawLine m => ⟨0x08#8, m.toBits, 0#1, 0#2, 0#2, 0#8, 0#8⟩
  | .drawBox m => ⟨0x09#8, m.toBits, 0#1, 0#2, 0#2, 0#8, 0#8⟩
  | .drawFilledBox m => ⟨0x0A#8, m.toBits, 0#1, 0#2, 0#2, 0#8, 0#8⟩
  | .drawCircle m => ⟨0x0B#8, m.toBits, 0#1, 0#2, 0#2, 0#8, 0#8⟩
  | .drawTestPattern k => ⟨0x0C#8, 0#3, 0#1, k.toBits, 0#2, 0#8, 0#8⟩
  | .drawMarquee len => ⟨0x0D#8, 0#3, 0#1, 0#2, 0#2, len, 0#8⟩
  | .stepMarquee => ⟨0x0E#8, 0#3, 0#1, 0#2, 0#2, 0#8, 0#8⟩
  | .tickRead => ⟨0x10#8, 0#3, 0#1, 0#2, 0#2, 0#8, 0#8⟩
  | .tickReadByte idx => ⟨0x11#8, 0#3, 0#1, 0#2, 0#2, idx, 0#8⟩
  | .ieSaveDisable s => ⟨0x12#8, 0#3, 0#1, 0#2, s.toBits, 0#8, 0#8⟩
  | .ieRestore s => ⟨0x13#8, 0#3, 0#1, 0#2, s.toBits, 0#8, 0#8⟩
  | .flagRead idx => ⟨0x14#8, 0#3, 0#1, 0#2, 0#2, idx, 0#8⟩
  | .flagClear idx => ⟨0x15#8, 0#3, 0#1, 0#2, 0#2, idx, 0#8⟩

/-- The command word of a command (R91, R97). -/
def encode (i : Instr) : Word := (encodeFields i).pack

/-- One row of spec/opcode_table.json: the word's bits under `mask` are `pattern` (R98). -/
structure OpcodeRow where
  mnemonic : String
  pattern : Word
  mask : Word
deriving DecidableEq, Repr

/-- The row of spec/opcode_table.json a command belongs to. -/
def Instr.row : Instr → OpcodeRow
  | .writePixel _ _ => ⟨"WRITE_PIXEL", 0x00000001#32, 0xFFFFF0FF#32⟩
  | .clear _ => ⟨"CLEAR", 0x00000002#32, 0xFFFFF7FF#32⟩
  | .selectFont => ⟨"SELECT_FONT", 0x00000003#32, 0xFFFFFFFF#32⟩
  | .charWidth _ => ⟨"CHAR_WIDTH", 0x00000004#32, 0xFF00FFFF#32⟩
  | .drawChar _ _ => ⟨"DRAW_CHAR", 0x00000005#32, 0xFF00F8FF#32⟩
  | .textWrite _ => ⟨"TEXT_WRITE", 0x00000006#32, 0xFF00FFFF#32⟩
  | .drawString _ _ => ⟨"DRAW_STRING", 0x00000007#32, 0xFF00F8FF#32⟩
  | .drawLine _ => ⟨"DRAW_LINE", 0x00000008#32, 0xFFFFF8FF#32⟩
  | .drawBox _ => ⟨"DRAW_BOX", 0x00000009#32, 0xFFFFF8FF#32⟩
  | .drawFilledBox _ => ⟨"DRAW_FILLED_BOX", 0x0000000A#32, 0xFFFFF8FF#32⟩
  | .drawCircle _ => ⟨"DRAW_CIRCLE", 0x0000000B#32, 0xFFFFF8FF#32⟩
  | .drawTestPattern _ => ⟨"DRAW_TEST_PATTERN", 0x0000000C#32, 0xFFFFCFFF#32⟩
  | .drawMarquee _ => ⟨"DRAW_MARQUEE", 0x0000000D#32, 0xFF00FFFF#32⟩
  | .stepMarquee => ⟨"STEP_MARQUEE", 0x0000000E#32, 0xFFFFFFFF#32⟩
  | .tickRead => ⟨"TICK_READ", 0x00000010#32, 0xFFFFFFFF#32⟩
  | .tickReadByte _ => ⟨"TICK_READ_BYTE", 0x00000011#32, 0xFF00FFFF#32⟩
  | .ieSaveDisable _ => ⟨"IE_SAVE_DISABLE", 0x00000012#32, 0xFFFF3FFF#32⟩
  | .ieRestore _ => ⟨"IE_RESTORE", 0x00000013#32, 0xFFFF3FFF#32⟩
  | .flagRead _ => ⟨"FLAG_READ", 0x00000014#32, 0xFF00FFFF#32⟩
  | .flagClear _ => ⟨"FLAG_CLEAR", 0x00000015#32, 0xFF00FFFF#32⟩

/-- spec/opcode_table.json, in its order. -/
def opcodeTable : List OpcodeRow :=
  [(Instr.writePixel .normal false).row, (Instr.clear false).row, Instr.selectFont.row, (Instr.charWidth 0#8).row,
   (Instr.drawChar .normal 0#8).row, (Instr.textWrite 0#8).row, (Instr.drawString .normal 0#8).row,
   (Instr.drawLine .normal).row, (Instr.drawBox .normal).row, (Instr.drawFilledBox .normal).row,
   (Instr.drawCircle .normal).row, (Instr.drawTestPattern .checker0).row, (Instr.drawMarquee 0#8).row,
   Instr.stepMarquee.row, Instr.tickRead.row, (Instr.tickReadByte 0#8).row, (Instr.ieSaveDisable .timer).row,
   (Instr.ieRestore .timer).row, (Instr.flagRead 0#8).row, (Instr.flagClear 0#8).row]

/-- The word whose bits are the low `nbits` bits of `w`, every higher bit 0. -/
def tableWord (nbits w : Nat) : Word := BitVec.ofNat 32 (w % 2 ^ nbits)

/-- What the decoder reads from a table word, with the TICK_WIDTH of State.reset (log entry 20). -/
def decodeTableWord (nbits w : Nat) : Option Instr :=
  decode Config.standard.tickWidth (tableWord nbits w)

end Sys2Proof
end

