-- ==== Sys2Proof/Machine/State.lean ====
section
/-! DEFINITION. The state of the engine (10_state.md R20 to R42), the stops of the model, and the state after reset
(70_reset_and_hazards.md R320). -/

namespace Sys2Proof.Machine

/-- A sparse byte store: the cells that differ from what an unlisted address reads as, addresses strictly rising. -/
abbrev Memory := List Host.Cell

/-- What an unlisted byte of FB reads as: its reset contents (R320). -/
def fbUnlisted : Byte := 0xFF#8

/-- What an unlisted byte of TEXT or MQ_TEXT reads as: its reset contents (R320). -/
def textUnlisted : Byte := 0x00#8

/-- CTX (R36). -/
inductive Ctx where
  | main
  | handler
deriving DecidableEq, Repr

/-- The argument registers (R21). -/
inductive ArgReg where
  | a0
  | a1
  | a2
  | a3
deriving DecidableEq, Repr

/-- The micro-operations a command is made of (R10, R25): indivisible state changes. -/
inductive MicroOp where
  /-- `Plot(x, y, mode, v)` (R121). -/
  | plot (x y : Int) (mode : Mode) (v : Bool)
  /-- `FbWrite(i, v)` (R61). -/
  | fbWrite (i : Nat) (v : Byte)
  /-- One byte update of `ShiftLeft` (R208). -/
  | shiftLeftByte (i : Nat)
  /-- One byte update of `ShiftRight` (R208). -/
  | shiftRightByte (i : Nat)
  /-- FONT_BASE and FONT_VALID (R141). -/
  | setFont (base : Half)
  /-- `TEXT[i] := v` (R170). -/
  | setText (i : Byte) (v : Byte)
  /-- All the marquee state at once (R205): the `len` bytes of `chars` are copied to MQ_TEXT. -/
  | startMarquee (chars : List Byte) (len : Byte) (width : Nat) (height : Byte) (ox oy : Int)
  /-- MQ_OX and MQ_OY (R207). -/
  | moveMarquee (ox oy : Int)
  /-- `RESULT := v` (R23). -/
  | setResult (v : Word)
  /-- `RESULT := TICK` (R253). -/
  | readTick
  /-- `RESULT := TICK[8*lane+7 : 8*lane]` (R254). -/
  | readTickByte (lane : Byte)
  /-- `RESULT := IE[src]; IE[src] := 0` (R256). -/
  | saveDisableIe (src : Source)
  /-- `IE[src] := b` (R257). -/
  | restoreIe (src : Source) (b : Bool)
  /-- `RESULT := FLAG[k]` (R259). -/
  | readFlag (k : Fin 2)
  /-- `FLAG[k] := 0` (R260). -/
  | clearFlag (k : Fin 2)
deriving DecidableEq, Repr

/-- The output events (R37). -/
inductive OutEvent where
  | ser (b : Byte)
  | blank
  | latch
  | rowSel (r : BitVec 2)
  | unblank
deriving DecidableEq, Repr

/-- The host's accesses to the registers (R22, R102). A host variable is named by a number. -/
inductive HostAccess where
  /-- `SETA An, v` with a value that stands in the program. -/
  | setArg (r : ArgReg) (v : Half)
  /-- `SETA An, x` with the value of the host variable `x`. -/
  | setArgVar (r : ArgReg) (x : Nat)
  /-- `GET x`: the host copies RESULT into its variable `x`. -/
  | getResult (x : Nat)
deriving DecidableEq, Repr

/-- The two registers of the fault record (R39). -/
inductive FaultReg where
  | code
  | cmd
deriving DecidableEq, Repr

/-- What the environment and the host do (R22, R25, R38, R39, R102, R103, R288, R337), one event at a time. `request` and
`busBusy` happen between two steps of the block; `wait` lets the block take its next step before the event that follows;
`access` and `issue` are the host's and wait until the main context is idle; `earlyAccess` and `readFault` do not wait;
`sumLanes` is the host's own arithmetic (log entries 3, 5, 18, 24 and 25). -/
inductive EnvEvent where
  /-- A request from a source (R288). -/
  | request (src : Source)
  /-- The BUS_BUSY input takes this level (R38). -/
  | busBusy (level : Bool)
  /-- Nothing arrives before the block's next step. -/
  | wait
  /-- The host accesses a register, as R22 asks: while the main context is idle. -/
  | access (a : HostAccess)
  /-- The host accesses a register at once, idle or not: what R337 says a host must not do, and what comes of it. -/
  | earlyAccess (a : HostAccess)
  /-- The host reads a register of the fault record into its variable `x`, which it may do at any time (R39). -/
  | readFault (r : FaultReg) (x : Nat)
  /-- The host presents a command word (R25). -/
  | issue (w : Word)
  /-- `Rt := sum of bk * 2^(8k)` (R103): the host adds up its variables `b`, `b + 1`, ..., `b + n - 1` into `x`. -/
  | sumLanes (x b n : Nat)
deriving DecidableEq, Repr

/-- The machine's state. The fields down to `faultCmd` are the spec's (R20); `cfg` holds the parameters of R7, which
nothing writes (log entry 1); `busBusy`, `env` and `hostVars` are the model's own (log entries 3, 4 and 18). -/
structure State where
  cfg : Config
  a0 : Half
  a1 : Half
  a2 : Half
  a3 : Half
  result : Word
  fb : Memory
  phase : BitVec 2
  fontBase : Half
  fontValid : Bool
  mqText : Memory
  mqLen : Byte
  mqWidth : Nat
  mqHeight : Byte
  mqOX : Int
  mqOY : Int
  text : Memory
  tick : BitVec 32
  flag0 : Byte
  flag1 : Byte
  ie : BitVec 3
  pend : BitVec 3
  ctx : Ctx
  cur : List MicroOp
  rowEn : Bool
  rowAddr : BitVec 2
  out : List OutEvent
  faultCode : Byte
  faultCmd : Word
  busBusy : Bool
  env : List EnvEvent
  hostVars : List (Nat × Word)
deriving DecidableEq, Repr

/-- Why the machine stops. The engine's own faults (R281) are not here: they are next states that record FAULT_CODE. -/
inductive Fault where
  /-- Raised by a micro-operation on a byte of FB outside 0..FB_BYTES-1, which R61 excludes: no reachable state raises
  it. Safe: the machine stops. -/
  | fbRange (i : Nat)
deriving DecidableEq, Repr

/-- Why a step is refused. -/
inductive Refusal where
  /-- Raised by exec for an instruction without a meaning: none is left. Safe: the machine stops. -/
  | notModelled (mnemonic : String)
  /-- Raised by step when the configuration breaks the ranges of R7, which a model must reject (I12, I13). Safe: the
  machine does not run. -/
  | invalidConfig
deriving DecidableEq, Repr

/-- Reset (R320) with the configuration `c`: every field at the value R320 gives it. The model's own fields: no bus
claim, nothing to come, no host variable written (DESIGN CHOICE, log entries 3, 4 and 18). -/
def State.resetWith (c : Config) : State where
  cfg := c
  a0 := 0#16
  a1 := 0#16
  a2 := 0#16
  a3 := 0#16
  result := 0#32
  fb := []
  phase := 0#2
  fontBase := 0#16
  fontValid := false
  mqText := []
  mqLen := 0#8
  mqWidth := 0
  mqHeight := 0#8
  mqOX := 0
  mqOY := 0
  text := []
  tick := 0#32
  flag0 := 0#8
  flag1 := 0#8
  ie := 0#3
  pend := 0#3
  ctx := .main
  cur := []
  rowEn := false
  rowAddr := 0#2
  out := []
  faultCode := 0#8
  faultCmd := 0#32
  busBusy := false
  env := []
  hostVars := []

/-- The machine right after reset (R320), in the configuration `Config.standard` (log entry 2). -/
def State.reset : State := State.resetWith Config.standard

end Sys2Proof.Machine
end

