-- ==== Sys2Proof/Machine/Ops.lean ====
section
/-! DEFINITION. The operations every command shares: the byte stores (20_memory.md), the pixel address and the
compositing modes (40_framebuffer.md), recording a fault (R281), and entering and leaving a handler (R292, R295). -/

namespace Sys2Proof.Machine

/-! ## Byte stores -/

/-- Byte `a` of the store; `u` is what an unlisted address reads as. -/
def Memory.read (u : Byte) : Memory → Nat → Byte
  | [], _ => u
  | (k, v) :: m, a => if k = a then v else Memory.read u m a

/-- The store with byte `a` set to `v`, in canonical form: writing `u` removes the entry. -/
def Memory.write (u : Byte) : Memory → Nat → Byte → Memory
  | [], a, v => if v = u then [] else [(a, v)]
  | (k, w) :: m, a, v =>
    if a < k then (if v = u then (k, w) :: m else (a, v) :: (k, w) :: m)
    else if a = k then (if v = u then m else (a, v) :: m)
    else (k, w) :: Memory.write u m a v

/-- The addresses rise strictly from `lo`, stay below `hi`, and no entry equals `u`. -/
def Memory.wfFrom (u : Byte) (hi : Nat) : Nat → Memory → Bool
  | _, [] => true
  | lo, (k, v) :: m => decide (lo ≤ k) && decide (k < hi) && (v != u) && Memory.wfFrom u hi (k + 1) m

/-- The canonical form of a store of `size` bytes (R60). -/
def Memory.wf (u : Byte) (size : Nat) (m : Memory) : Bool := Memory.wfFrom u size 0 m

/-- FbRead(i) (R61), for an index in range. -/
def fbRead (s : State) (i : Nat) : Byte := Memory.read fbUnlisted s.fb i

/-- FbWrite(i, v) (R61), for an index in range. -/
def fbWrite (s : State) (i : Nat) (v : Byte) : State := { s with fb := Memory.write fbUnlisted s.fb i v }

/-- TEXT[i] (R31). -/
def textRead (s : State) (i : Nat) : Byte := Memory.read textUnlisted s.text i

/-- MQ_TEXT[i] (R30). -/
def mqTextRead (s : State) (i : Nat) : Byte := Memory.read textUnlisted s.mqText i

/-- TEXT[0..n-1]. -/
def textPrefix (s : State) (n : Nat) : List Byte := (List.range n).map (textRead s)

/-- MQ_TEXT[0..n-1]. -/
def mqTextPrefix (s : State) (n : Nat) : List Byte := (List.range n).map (mqTextRead s)

/-- The store with the bytes of `bs` at `i`, `i+1`, and so on. -/
def Memory.writeList (u : Byte) : Memory → Nat → List Byte → Memory
  | m, _, [] => m
  | m, i, b :: bs => Memory.writeList u (Memory.write u m i b) (i + 1) bs

/-! ## Pixels -/

/-- MASK[k] (R64). -/
def pixelMask (k : Nat) : Byte := 0x80#8 >>> k

/-- Addr(x, y) (R63): the byte index and the mask of a pixel, or none outside the grid. -/
def pixelAddr (c : Config) (x y : Int) : Option (Nat × Byte) :=
  if x < 0 ∨ y < 0 ∨ x ≥ c.gridWidth ∨ y ≥ c.gridHeight then none
  else
    let p := x.toNat / panelWidth + c.wp * (y.toNat / panelHeight)
    let x' := x.toNat % panelWidth + p * panelWidth
    let y' := y.toNat % panelHeight
    some (x' / 8 + y' * c.rowBytes, pixelMask (x' % 8))

/-- Compose(mode, b, m, v) (R122 to R126). -/
def compose (nor : NorVariant) (mode : Mode) (b m : Byte) (v : Bool) : Byte :=
  match mode with
  | .normal => if v then b &&& ~~~m else b ||| m
  | .inverse => if v then b ||| m else b &&& ~~~m
  | .toggle => if v then b ^^^ m else b
  | .or => if v then b &&& ~~~m else b
  | .nor =>
    match nor with
    | .doc => if v && ((b &&& m) != 0#8) then b &&& ~~~m else b
    | .library => if v && ((b &&& m) == 0#8) then b ||| m else b

/-- Plot(x, y, mode, v) (R121). -/
def plot (s : State) (x y : Int) (mode : Mode) (v : Bool) : State :=
  match pixelAddr s.cfg x y with
  | none => s
  | some (i, m) => fbWrite s i (compose s.cfg.norVariant mode (fbRead s i) m v)

/-- The stored bit of a pixel of the grid (R120): `some true` is lit, `some false` dark, `none` off the grid. -/
def pixelLit (s : State) (x y : Int) : Option Bool :=
  match pixelAddr s.cfg x y with
  | none => none
  | some (i, m) => some ((fbRead s i &&& m) == 0#8)

/-- One `Plot` with the pixel value `v` for each point, in order. -/
def plotAll (mode : Mode) (v : Bool) (ps : List (Int × Int)) : List MicroOp :=
  ps.map fun p => .plot p.1 p.2 mode v

/-- The body of CLEAR (R128): every byte of FB, ascending. -/
def clearOps (c : Config) (v : Bool) : List MicroOp :=
  (List.range c.fbBytes).map fun i => .fbWrite i (if v then 0xFF#8 else 0x00#8)

/-! ## Faults -/

/-- The causes of a fault (R281). -/
inductive FaultKind where
  | illegalCommand
  | illegalArgument
  | fontNotSelected
  | fontRange
deriving DecidableEq, Repr

/-- The code FAULT_CODE records (R281). -/
def FaultKind.code : FaultKind → Byte
  | .illegalCommand => 1#8
  | .illegalArgument => 2#8
  | .fontNotSelected => 3#8
  | .fontRange => 4#8

/-- NONE, the code of no fault (R281). -/
def faultNone : Byte := 0#8

/-- Fault(code), raised while the word `w` is issued (R281): the first fault is recorded and the command does nothing. -/
def raiseFault (k : FaultKind) (w : Word) (s : State) : State :=
  if s.faultCode = faultNone then { s with faultCode := k.code, faultCmd := w, cur := [] }
  else { s with cur := [] }

/-- The last step of issue (R25): CUR takes the command's micro-operations. -/
def issueOps (ops : List MicroOp) (s : State) : Host.Outcome State Fault Refusal := .next { s with cur := ops }

/-- Issue of the command `i` ends in this fault (R281): FAULT_CMD records the command's word. -/
def failIssue (k : FaultKind) (i : Instr) (s : State) : Host.Outcome State Fault Refusal :=
  .next (raiseFault k (encode i) s)

/-- Issue of a font command (R284): the font must be selected, then every font read is made, then CUR is set. -/
def issueFont (i : Instr) (ops : State → Option (List MicroOp)) (s : State) : Host.Outcome State Fault Refusal :=
  if s.fontValid then
    match ops s with
    | some l => issueOps l s
    | none => failIssue .fontRange i s
  else failIssue .fontNotSelected i s

/-! ## Handler entry and return -/

/-- The number of a source: its bit in IE and PEND (R34, R35, R287). -/
def sourceBit : Source → Nat
  | .timer => 0
  | .edge0 => 1
  | .edge1 => 2

/-- `v` with bit `n` set to `b`. -/
def putBit (v : BitVec 3) (n : Nat) (b : Bool) : BitVec 3 :=
  if b then v ||| (1#3 <<< n) else v &&& ~~~(1#3 <<< n)

/-- The return from a handler (R295): only CTX changes. -/
def returnFromHandler (s : State) : State := { s with ctx := .main }

/-- Entry to the handler of source `n` (R292): PEND[n] is cleared, CTX is HANDLER while the handler `body` runs as one
step, and the return follows. -/
def enterHandler (n : Source) (body : State → State) (s : State) : State :=
  returnFromHandler (body { s with pend := putBit s.pend (sourceBit n) false, ctx := .handler })

end Sys2Proof.Machine
end

