-- ==== Sys2Proof/Machine/Operands.lean ====
section
/-! DEFINITION. The operands of the commands: the argument registers (R21, R96) and the host's writes to them (R22). -/

namespace Sys2Proof.Machine

/-- The bits of an argument register. -/
def argBits (s : State) : ArgReg → Half
  | .a0 => s.a0
  | .a1 => s.a1
  | .a2 => s.a2
  | .a3 => s.a3

/-- An argument register read as a signed 16-bit integer (R21, R96). -/
def argInt (s : State) (r : ArgReg) : Int := (argBits s r).toInt

/-- A0 as the unsigned address of SELECT_FONT (R96). -/
def fontAddress (s : State) : Half := s.a0

/-- A0[0], the only bit IE_RESTORE uses (R96). -/
def restoreBit (s : State) : Bool := s.a0.getLsbD 0

/-- The host's write of an argument register (R22). -/
def setArg (r : ArgReg) (v : Half) (s : State) : State :=
  match r with
  | .a0 => { s with a0 := v }
  | .a1 => { s with a1 := v }
  | .a2 => { s with a2 := v }
  | .a3 => { s with a3 := v }

/-- A signed result as it stands in RESULT: its low 32 bits, so sign-extended (R23). -/
def signedResult (v : Int) : Word := BitVec.ofInt 32 v

end Sys2Proof.Machine
end

