-- ==== Sys2Proof/Machine/Framebuffer.lean ====
section
/-! DEFINITION. WRITE_PIXEL and CLEAR (40_framebuffer.md). -/

namespace Sys2Proof.Machine

/-- WRITE_PIXEL (R127): one `Plot` at (A0, A1). -/
def execWritePixel (mode : Mode) (v : Bool) (s : State) : Host.Outcome State Fault Refusal :=
  issueOps [.plot (argInt s .a0) (argInt s .a1) mode v] s

/-- CLEAR (R128): V = 1 fills with 0xFF, all dark; V = 0 with 0x00, all lit. -/
def execClear (v : Bool) (s : State) : Host.Outcome State Fault Refusal :=
  issueOps (clearOps s.cfg v) s

end Sys2Proof.Machine
end

