-- ==== Sys2Proof/Machine/Font.lean ====
section
/-! DEFINITION. The font resource (41_font.md R140 to R149), reading it (20_memory.md R70), and SELECT_FONT, CHAR_WIDTH
and DRAW_CHAR. A function here answers `none` exactly when a read falls outside FONT_ROM, which raises FONT_RANGE. -/

namespace Sys2Proof.Machine

/-- FontRead(off) (R70): no 16-bit wrap. -/
def fontRead (s : State) (off : Nat) : Option Byte := s.cfg.fontRom[s.fontBase.toNat + off]?

/-- The concatenation of the lists `f` gives for each element in turn, or none at the first that gives none. -/
def gather {α β : Type} (f : α → Option (List β)) : List α → Option (List β)
  | [] => some []
  | a :: as =>
    match f a with
    | none => none
    | some x =>
      match gather f as with
      | none => none
      | some xs => some (x ++ xs)

/-- h, the height of the font (R142). -/
def fontHeight (s : State) : Option Nat := (fontRead s 3).map BitVec.toNat

/-- bpc = ceil(h/8) (R142). -/
def bytesPerColumn (h : Nat) : Nat := (h + 7) / 8

/-- Whether the font is fixed-width (R142): both bytes of `length` are 0. -/
def fontFixed (s : State) : Option Bool := do
  let l0 ← fontRead s 0
  let l1 ← fontRead s 1
  return l0 == 0#8 && l1 == 0#8

/-- The glyph index of a code point (R143): `some none` when it is unrenderable. Both `first` and `count` are read
(log entry 11). -/
def glyphIndex (s : State) (c : Byte) : Option (Option Nat) := do
  let first ← fontRead s 4
  let count ← fontRead s 5
  if first.toNat ≤ c.toNat ∧ c.toNat < first.toNat + count.toNat then return some (c.toNat - first.toNat)
  else return none

/-- GlyphWidth(gi) (R144). -/
def glyphWidth (s : State) (gi : Nat) : Option Nat := do
  let fixed ← fontFixed s
  let w ← fontRead s (if fixed then 2 else 6 + gi)
  return w.toNat

/-- The sum of rd(6 + k) for k in 0..n-1 (R144). -/
def widthSum (s : State) : Nat → Option Nat
  | 0 => some 0
  | n + 1 => do
    let t ← widthSum s n
    let w ← fontRead s (6 + n)
    return t + w.toNat

/-- GlyphOffset(gi) (R144), with `bpc` the bytes in a column. -/
def glyphOffset (s : State) (gi bpc : Nat) : Option Nat := do
  let fixed ← fontFixed s
  if fixed then
    let w ← fontRead s 2
    return 6 + gi * bpc * w.toNat
  else
    let count ← fontRead s 5
    let t ← widthSum s gi
    return 6 + count.toNat + bpc * t

/-- GB(j, i) (R147): the offset of column byte `i` of column `j` in a glyph of width `w` at `off`. -/
def glyphByteOffset (layout : GlyphLayout) (off w bpc j i : Nat) : Nat :=
  match layout with
  | .columnMajor => off + j * bpc + i
  | .byteRowMajor => off + i * w + j

/-- org(i) (R148): the row of the top bit of column byte `i`. -/
def columnByteOrigin (h bpc i : Nat) : Int := if i = bpc - 1 ∧ bpc > 1 then (h : Int) - 8 else (i : Int) * 8

/-- bitv(d, k) (R148): the pixel value at bit position `k`, counted from the top. -/
def glyphBit (order : GlyphBitOrder) (d : Byte) (k : Nat) : Bool :=
  match order with
  | .msbTop => d.getLsbD (7 - k)
  | .lsbTop => d.getLsbD k

/-- The space (R145, R150). -/
def spaceChar : Byte := 0x20#8

/-- 'n', whose width a space has (R145). -/
def charN : Byte := 0x6E#8

/-- CharWidth(c) (R145). -/
def charWidth (s : State) (c : Byte) : Option Nat := do
  match ← glyphIndex s (if c = spaceChar then charN else c) with
  | none => return 0
  | some gi => glyphWidth s gi

/-- The plots of one column byte `d` (R149, R150): bits 0..7, those with i*8 ≤ r < h only. -/
def columnByteOps (c : Config) (x y : Int) (mode : Mode) (h bpc i : Nat) (d : Byte) : List MicroOp :=
  (List.range 8).filterMap fun (k : Nat) =>
    let r := columnByteOrigin h bpc i + (k : Int)
    if (i : Int) * 8 ≤ r ∧ r < (h : Int) then some (.plot x (y + r) mode (glyphBit c.glyphBitOrder d k)) else none

/-- The plots of a glyph (R150): columns left to right, in each the column bytes from the last to the first. -/
def glyphOps (s : State) (x y : Int) (mode : Mode) (h w off : Nat) : Option (List MicroOp) :=
  let bpc := bytesPerColumn h
  gather (fun (j : Nat) =>
    gather (fun (i : Nat) => do
      let d ← fontRead s (glyphByteOffset s.cfg.glyphLayout off w bpc j i)
      return columnByteOps s.cfg (x + (j : Int)) y mode h bpc i d) (List.range bpc).reverse) (List.range w)

/-- The box of a space (R150): `w` columns of `h` rows, plotted with v = 0. -/
def spaceOps (x y : Int) (mode : Mode) (h w : Nat) : List MicroOp :=
  plotAll mode false <| (List.range w).flatMap fun i => (List.range h).map fun j => (x + (i : Int), y + (j : Int))

/-- DrawChar(x, y, c, mode) (R150): the value it returns and its plots. -/
def drawChar (s : State) (x y : Int) (c : Byte) (mode : Mode) : Option (Int × List MicroOp) :=
  if x ≥ s.cfg.gridWidth ∨ y ≥ s.cfg.gridHeight then some (-1, [])
  else if c = spaceChar then do
    let w ← charWidth s spaceChar
    let h ← fontHeight s
    return ((w : Int), spaceOps x y mode h w)
  else do
    match ← glyphIndex s c with
    | none => return (0, [])
    | some gi =>
      let w ← glyphWidth s gi
      let h ← fontHeight s
      let off ← glyphOffset s gi (bytesPerColumn h)
      let ops ← glyphOps s x y mode h w off
      return ((w : Int), ops)

/-- SELECT_FONT (R141): the resource is neither read nor checked. -/
def execSelectFont (s : State) : Host.Outcome State Fault Refusal :=
  issueOps [.setFont (fontAddress s)] s

/-- CHAR_WIDTH (R145). -/
def execCharWidth (ch : Byte) (s : State) : Host.Outcome State Fault Refusal :=
  issueFont (.charWidth ch) (fun s => (charWidth s ch).map fun w => [.setResult (signedResult w)]) s

/-- DRAW_CHAR (R150) at (A0, A1). -/
def execDrawChar (mode : Mode) (ch : Byte) (s : State) : Host.Outcome State Fault Refusal :=
  issueFont (.drawChar mode ch)
    (fun s => (drawChar s (argInt s .a0) (argInt s .a1) ch mode).map fun r => r.2 ++ [.setResult (signedResult r.1)]) s

end Sys2Proof.Machine
end

