-- ==== Sys2Proof/Machine/Shapes.lean ====
section
/-! DEFINITION. Lines, boxes, circles and test patterns (42_raster.md R180 to R201): the points each plots, in order, and
the commands. All arithmetic is on integers (R9, D4). -/

namespace Sys2Proof.Machine

/-- The loop of DrawLine (R180) along its major axis: `n` steps from the point (a, b), `a` on the major axis. `f` is the
error term, `da` and `db` the doubled distances, `sa` and `sb` the signs. -/
def lineSteps : Nat → (a b f sa sb da db : Int) → List (Int × Int)
  | 0, _, _, _, _, _, _, _ => []
  | n + 1, a, b, f, sa, sb, da, db =>
    let b' := if f ≥ 0 then b + sb else b
    let f' := if f ≥ 0 then f - da else f
    (a + sa, b') :: lineSteps n (a + sa) b' (f' + db) sa sb da db

/-- The sign DrawLine steps with (R180). -/
def lineSign (d : Int) : Int := if d < 0 then -1 else 1

/-- The points DrawLine plots, in order (R180). The loop runs once for each unit of the longer distance. -/
def linePoints (x1 y1 x2 y2 : Int) : List (Int × Int) :=
  let dy := 2 * ((y2 - y1).natAbs : Int)
  let dx := 2 * ((x2 - x1).natAbs : Int)
  let sy := lineSign (y2 - y1)
  let sx := lineSign (x2 - x1)
  if dx > dy then
    (x1, y1) :: lineSteps (x2 - x1).natAbs x1 y1 (dy - dx / 2) sx sy dx dy
  else
    (x1, y1) :: (lineSteps (y2 - y1).natAbs y1 x1 (dx - dy / 2) sy sx dy dx).map fun p => (p.2, p.1)

/-- DrawLine (R180): it plots with v = 1. -/
def drawLine (x1 y1 x2 y2 : Int) (mode : Mode) : List MicroOp := plotAll mode true (linePoints x1 y1 x2 y2)

/-- The points of DRAW_BOX (R183): top, right, bottom and left lines. -/
def boxPoints (x1 y1 x2 y2 : Int) : List (Int × Int) :=
  linePoints x1 y1 x2 y1 ++ linePoints x2 y1 x2 y2 ++ linePoints x2 y2 x1 y2 ++ linePoints x1 y2 x1 y1

/-- The columns x1..x2 (R11, R184): none when x1 > x2. -/
def columns (x1 x2 : Int) : List Int := (List.range (x2 - x1 + 1).toNat).map fun k => x1 + (k : Int)

/-- The points of DRAW_FILLED_BOX (R184): a vertical line for each column. -/
def filledBoxPoints (x1 y1 x2 y2 : Int) : List (Int × Int) :=
  (columns x1 x2).flatMap fun b => linePoints b y1 b y2

/-- CircleSub (R191): the symmetric points of the offset (x, y). -/
def circleSub (cx cy x y : Int) : List (Int × Int) :=
  if x = 0 then [(cx, cy + y), (cx, cy - y), (cx + y, cy), (cx - y, cy)]
  else if x = y then [(cx + x, cy + y), (cx - x, cy + y), (cx + x, cy - y), (cx - x, cy - y)]
  else if x < y then
    [(cx + x, cy + y), (cx - x, cy + y), (cx + x, cy - y), (cx - x, cy - y),
     (cx + y, cy + x), (cx - y, cy + x), (cx + y, cy - x), (cx - y, cy - x)]
  else []

/-- The loop of DrawCircle (R190), for at most `n` rounds; `n` is the radius, and x rises by one a round while x < y, so
the bound never cuts the loop short. -/
def circleSteps : Nat → (cx cy x y p : Int) → List (Int × Int)
  | 0, _, _, _, _, _ => []
  | n + 1, cx, cy, x, y, p =>
    if x < y then
      let x' := x + 1
      let y' := if p < 0 then y else y - 1
      let p' := if p < 0 then p + 2 * x' + 1 else p + 2 * (x' - y') + 1
      circleSub cx cy x' y' ++ circleSteps n cx cy x' y' p'
    else []

/-- The points DrawCircle plots, in order (R190). -/
def circlePoints (cx cy r : Int) : List (Int × Int) :=
  circleSub cx cy 0 r ++ circleSteps r.toNat cx cy 0 r ((5 - 4 * r).tdiv 4)

/-- The value of test-pattern pixel number `ui` (R200). -/
def patternValue (k : TestKind) (pw ui : Nat) : Bool :=
  let oddRow := (ui &&& pw) != 0
  let b := (ui &&& 1) == 1
  match k with
  | .checker0 => if oddRow then !b else b
  | .checker1 => if oddRow then b else !b
  | .stripe0 => b
  | .stripe1 => !b

/-- The point of test-pattern pixel number `ui` (R200); `ui & ~(pw-1)` is `ui - (ui & (pw-1))`. -/
def patternPoint (pw ui : Nat) : Int × Int :=
  (((ui &&& (pw - 1) : Nat) : Int), (((ui - (ui &&& (pw - 1))) / pw : Nat) : Int))

/-- TestPattern(k) (R200): 512*T plots in NORMAL mode. -/
def testPattern (c : Config) (k : TestKind) : List MicroOp :=
  (List.range (512 * c.panels)).map fun ui =>
    .plot (patternPoint c.gridWidth ui).1 (patternPoint c.gridWidth ui).2 .normal (patternValue k c.gridWidth ui)

/-- DRAW_LINE (R181): from (A0, A1) to (A2, A3). -/
def execDrawLine (mode : Mode) (s : State) : Host.Outcome State Fault Refusal :=
  issueOps (drawLine (argInt s .a0) (argInt s .a1) (argInt s .a2) (argInt s .a3) mode) s

/-- DRAW_BOX (R183): the outline with corners (A0, A1) and (A2, A3). -/
def execDrawBox (mode : Mode) (s : State) : Host.Outcome State Fault Refusal :=
  issueOps (plotAll mode true (boxPoints (argInt s .a0) (argInt s .a1) (argInt s .a2) (argInt s .a3))) s

/-- DRAW_FILLED_BOX (R184): the columns A0..A2, each from A1 to A3. -/
def execDrawFilledBox (mode : Mode) (s : State) : Host.Outcome State Fault Refusal :=
  issueOps (plotAll mode true (filledBoxPoints (argInt s .a0) (argInt s .a1) (argInt s .a2) (argInt s .a3))) s

/-- DRAW_CIRCLE (R192): radius A2 around (A0, A1). -/
def execDrawCircle (mode : Mode) (s : State) : Host.Outcome State Fault Refusal :=
  issueOps (plotAll mode true (circlePoints (argInt s .a0) (argInt s .a1) (argInt s .a2))) s

/-- DRAW_TEST_PATTERN (R201). -/
def execDrawTestPattern (kind : TestKind) (s : State) : Host.Outcome State Fault Refusal :=
  issueOps (testPattern s.cfg kind) s

end Sys2Proof.Machine
end

