-- ==== Sys2Proof/Machine/Text.lean ====
section
/-! DEFINITION. TEXT_WRITE and DRAW_STRING (42_raster.md R170 to R173). -/

namespace Sys2Proof.Machine

/-- The separator of a string at column `x` (R171): the rows y..y+h, INVERSE. -/
def separatorOps (x y h : Int) : List MicroOp := drawLine x y x (y + h) .inverse

/-- The loop of DrawString over its code points (R171); `sw` is the advance so far. -/
def stringLoop (s : State) (x y h : Int) (mode : Mode) : Int → List Byte → Option (List MicroOp)
  | _, [] => some []
  | sw, c :: cs => do
    let (cw, glyph) ← drawChar s (x + sw) y c mode
    if cw < 0 then return glyph
    let drawn := if cw > 0 then glyph ++ separatorOps (x + (sw + cw)) y h else glyph
    let sw' := if cw > 0 then sw + cw + 1 else sw
    if x + sw' ≥ s.cfg.gridWidth ∨ y ≥ s.cfg.gridHeight then return drawn
    let rest ← stringLoop s x y h mode sw' cs
    return drawn ++ rest

/-- DrawString(x, y, chars, mode) (R171): its plots. -/
def drawString (s : State) (x y : Int) (chars : List Byte) (mode : Mode) : Option (List MicroOp) :=
  if x ≥ s.cfg.gridWidth ∨ y ≥ s.cfg.gridHeight then some []
  else do
    let h ← fontHeight s
    if y + (h : Int) < 0 then return []
    let rest ← stringLoop s x y h mode 0 chars
    return separatorOps (x - 1) y h ++ rest

/-- TEXT_WRITE (R170): TEXT[A0] := CH; an index outside 0..255 is ILLEGAL_ARGUMENT (R283). -/
def execTextWrite (ch : Byte) (s : State) : Host.Outcome State Fault Refusal :=
  if argInt s .a0 < 0 ∨ argInt s .a0 ≥ textSize then failIssue .illegalArgument (.textWrite ch) s
  else issueOps [.setText (BitVec.ofNat 8 (argInt s .a0).toNat) ch] s

/-- DRAW_STRING (R172): TEXT[0..LEN-1] at (A0, A1). -/
def execDrawString (mode : Mode) (len : Byte) (s : State) : Host.Outcome State Fault Refusal :=
  issueFont (.drawString mode len)
    (fun s => drawString s (argInt s .a0) (argInt s .a1) (textPrefix s len.toNat) mode) s

end Sys2Proof.Machine
end

