-- ==== Sys2Proof/Machine/Marquee.lean ====
section
/-! DEFINITION. DRAW_MARQUEE and STEP_MARQUEE (42_raster.md R205 to R208). -/

namespace Sys2Proof.Machine

/-- The sum of CharWidth(c) + 1 over the code points (R205). -/
def marqueeWidth (s : State) : List Byte → Option Nat
  | [] => some 0
  | c :: cs => do
    let w ← charWidth s c
    let t ← marqueeWidth s cs
    return w + 1 + t

/-- The micro-operations of DRAW_MARQUEE (R205). -/
def startMarqueeOps (s : State) (len : Byte) : Option (List MicroOp) := do
  let chars := textPrefix s len.toNat
  let width ← marqueeWidth s chars
  let h ← fontRead s 3
  let ops ← drawString s (argInt s .a0) (argInt s .a1) chars .normal
  return .startMarquee chars len width h (argInt s .a0) (argInt s .a1) :: ops

/-- One axis of Wrap (R206): an offset strictly past an edge goes to the opposite edge, and whether it did. -/
def wrapAxis (offset extent limit : Int) : Int × Bool :=
  if offset < -extent then (limit, true)
  else if offset > limit then (-extent, true)
  else (offset, false)

/-- The glyph a shift draws (R208): the first whose right end satisfies `reaches`, with its position. -/
def enteringGlyph (s : State) (reaches : Int → Bool) : Int → List Byte → Option (Option (Int × Byte))
  | _, [] => some none
  | sw, c :: cs => do
    let w ← charWidth s c
    if reaches (sw + (w : Int)) then return some (sw, c)
    else enteringGlyph s reaches (sw + (w : Int) + 1) cs

/-- The glyph drawn after a shift (R208), in NORMAL mode; nothing if none qualifies. -/
def drawEntering (s : State) (reaches : Int → Bool) (ox oy : Int) (chars : List Byte) : Option (List MicroOp) := do
  match ← enteringGlyph s reaches ox chars with
  | none => return []
  | some (x, c) => (drawChar s x oy c .normal).map Prod.snd

/-- ShiftLeft (R208): the byte updates ascending, then the entering glyph. -/
def shiftLeftOps (s : State) (ox oy : Int) (chars : List Byte) : Option (List MicroOp) := do
  let glyph ← drawEntering s (fun e => decide (e ≥ s.cfg.gridWidth)) ox oy chars
  return (List.range s.cfg.fbBytes).map .shiftLeftByte ++ glyph

/-- ShiftRight (R208): the byte updates descending, then the entering glyph. -/
def shiftRightOps (s : State) (ox oy : Int) (chars : List Byte) : Option (List MicroOp) := do
  let glyph ← drawEntering s (fun e => decide (e ≥ 0)) ox oy chars
  return (List.range s.cfg.fbBytes).reverse.map .shiftRightByte ++ glyph

/-- The redraw of STEP_MARQUEE (R207) at the offsets after the wrap. -/
def marqueeRedraw (s : State) (dx dy ox oy : Int) : Option (List MicroOp) :=
  let chars := mqTextPrefix s s.mqLen.toNat
  if s.cfg.marqueeFastShift ∧ dy = 0 ∧ dx = -1 then shiftLeftOps s ox oy chars
  else if s.cfg.marqueeFastShift ∧ dy = 0 ∧ dx = 1 then shiftRightOps s ox oy chars
  else drawString s ox oy chars .normal

/-- The micro-operations of STEP_MARQUEE (R207): the offsets after the wrap, a Clear(1) for each axis that wrapped (R206),
the redraw, and RESULT. -/
def stepMarqueeOps (s : State) : Option (List MicroOp) := do
  let dx := argInt s .a0
  let dy := argInt s .a1
  let wx := wrapAxis (s.mqOX + dx) s.mqWidth s.cfg.gridWidth
  let wy := wrapAxis (s.mqOY + dy) s.mqHeight.toNat s.cfg.gridHeight
  let redraw ← marqueeRedraw s dx dy wx.1 wy.1
  return .moveMarquee wx.1 wy.1 ::
    ((if wx.2 then clearOps s.cfg true else []) ++ (if wy.2 then clearOps s.cfg true else []) ++ redraw ++
      [.setResult (if wx.2 || wy.2 then 1#32 else 0#32)])

/-- DRAW_MARQUEE (R205): TEXT[0..LEN-1] at (A0, A1). -/
def execDrawMarquee (len : Byte) (s : State) : Host.Outcome State Fault Refusal :=
  issueFont (.drawMarquee len) (fun s => startMarqueeOps s len) s

/-- STEP_MARQUEE (R207) by (A0, A1). -/
def execStepMarquee (s : State) : Host.Outcome State Fault Refusal :=
  issueFont .stepMarquee stepMarqueeOps s

end Sys2Proof.Machine
end

