-- ==== Sys2Proof/Machine/Flags.lean ====
section
/-! DEFINITION. The one-bit and one-byte flags: the event flags FLAG[k] (R33), the interrupt enables IE (R34), the pending
bits PEND (R35), and which source is taken (R290, R294). The block has no condition codes (R33). -/

namespace Sys2Proof.Machine

/-- FLAG[k] (R33). -/
def readFlag (s : State) (k : Fin 2) : Byte := if k = 0 then s.flag0 else s.flag1

/-- FLAG[k] := v. -/
def writeFlag (k : Fin 2) (v : Byte) (s : State) : State :=
  if k = 0 then { s with flag0 := v } else { s with flag1 := v }

/-- IE[n] (R34). -/
def ieBit (s : State) (n : Source) : Bool := s.ie.getLsbD (sourceBit n)

/-- IE[n] := b. -/
def writeIe (n : Source) (b : Bool) (s : State) : State := { s with ie := putBit s.ie (sourceBit n) b }

/-- PEND[n] (R35). -/
def pendBit (s : State) (n : Source) : Bool := s.pend.getLsbD (sourceBit n)

/-- A request from source `n` (R288): PEND[n] := 1, whatever IE[n] is. -/
def requestSource (n : Source) (s : State) : State := { s with pend := putBit s.pend (sourceBit n) true }

/-- Source `n` is eligible (R290). -/
def eligible (s : State) (n : Source) : Bool := pendBit s n && ieBit s n

/-- The eligible source with the highest priority (R287, R294): TIMER, then EDGE0, then EDGE1. -/
def nextSource (s : State) : Option Source :=
  if eligible s .timer then some .timer
  else if eligible s .edge0 then some .edge0
  else if eligible s .edge1 then some .edge1
  else none

end Sys2Proof.Machine
end

