-- ==== Sys2Proof/Machine/Timebase.lean ====
section
/-! DEFINITION. The tick counter, the interrupt enables and the event flags (44_timebase_sync.md): the tick increment and
the six commands. -/

namespace Sys2Proof.Machine

/-- The tick increment (R251): modulo 2^TICK_WIDTH. -/
def incTick (s : State) : State :=
  { s with tick := BitVec.ofNat 32 ((s.tick.toNat + s.cfg.tickInc) % 2 ^ s.cfg.tickWidth.bits) }

/-- TICK[8*lane+7 : 8*lane] (R254, R67), zero-extended. -/
def tickLane (tick : BitVec 32) (lane : Byte) : Word := (tick >>> (8 * lane.toNat)) &&& 0xFF#32

/-- The time between two readings of TICK (R252). -/
def tickElapsed (tw : TickWidth) (now before : BitVec 32) : Nat :=
  (now.toNat + 2 ^ tw.bits - before.toNat) % 2 ^ tw.bits

/-- The event flag an index names, if the index is below N_EDGE (R95). -/
def flagIndex (idx : Byte) : Option (Fin 2) :=
  if h : idx.toNat < 2 then some ⟨idx.toNat, h⟩ else none

/-- TICK_READ (R253). -/
def execTickRead (s : State) : Host.Outcome State Fault Refusal := issueOps [.readTick] s

/-- TICK_READ_BYTE (R254). An index out of range is an illegal word (R99), which no word decodes to (log entry 12). -/
def execTickReadByte (idx : Byte) (s : State) : Host.Outcome State Fault Refusal :=
  if idx.toNat < s.cfg.tickWidth.lanes then issueOps [.readTickByte idx] s
  else failIssue .illegalCommand (.tickReadByte idx) s

/-- IE_SAVE_DISABLE (R256). -/
def execIeSaveDisable (src : Source) (s : State) : Host.Outcome State Fault Refusal :=
  issueOps [.saveDisableIe src] s

/-- IE_RESTORE (R257): A0[0] is the value restored. -/
def execIeRestore (src : Source) (s : State) : Host.Outcome State Fault Refusal :=
  issueOps [.restoreIe src (restoreBit s)] s

/-- FLAG_READ (R259). An index out of range is an illegal word (R99), which no word decodes to (log entry 12). -/
def execFlagRead (idx : Byte) (s : State) : Host.Outcome State Fault Refusal :=
  match flagIndex idx with
  | some k => issueOps [.readFlag k] s
  | none => failIssue .illegalCommand (.flagRead idx) s

/-- FLAG_CLEAR (R260). An index out of range is an illegal word (R99), which no word decodes to (log entry 12). -/
def execFlagClear (idx : Byte) (s : State) : Host.Outcome State Fault Refusal :=
  match flagIndex idx with
  | some k => issueOps [.clearFlag k] s
  | none => failIssue .illegalCommand (.flagClear idx) s

end Sys2Proof.Machine
end

