-- ==== Sys2Proof/Machine/Scanout.lean ====
section
/-! DEFINITION. The timer handler with the scan-out (43_scanout.md R220 to R227), the edge handlers
(44_timebase_sync.md R262), interrupt dispatch (60_exceptions.md R291), and what the display receivers show (R229). -/

namespace Sys2Proof.Machine

/-- The framebuffer index of the byte that one scan of phase `s` sends for byte column `i` and quarter band `q` (R221). -/
def scanIndex (c : Config) (phase i q : Nat) : Nat := c.rowBytes * phase + i + c.bandBytes * q

/-- The SER events of one scan (R221): byte columns ascending, in each the bands 3, 2, 1, 0. -/
def scanBytes (s : State) : List OutEvent :=
  (List.range s.cfg.rowBytes).flatMap fun i =>
    [3, 2, 1, 0].map fun q => .ser (fbRead s (scanIndex s.cfg s.phase.toNat i q))

/-- One scan that is not skipped (R221): the bytes, then blank, latch, row select and unblank, and PHASE advances. -/
def scan (s : State) : State :=
  { s with
    out := s.out ++ scanBytes s ++ [.blank, .latch, .rowSel s.phase, .unblank]
    rowEn := true
    rowAddr := s.phase
    phase := s.phase + 1#2 }

/-- TimerHandler (R221): the scan unless BUS_BUSY is 1, then the tick in either case. -/
def timerHandler (s : State) : State := incTick (if s.busBusy then s else scan s)

/-- EdgeHandler(k) (R262). -/
def edgeHandler (k : Fin 2) (s : State) : State := writeFlag k 0x01#8 s

/-- The handler of a source (R287). -/
def handlerBody : Source → State → State
  | .timer => timerHandler
  | .edge0 => edgeHandler 0
  | .edge1 => edgeHandler 1

/-- Entry to the handler of source `n`, its run and its return (R292). -/
def enter (n : Source) (s : State) : State := enterHandler n (handlerBody n) s

/-! ## The display receivers -/

/-- The events up to and with the last LATCH. -/
def upToLatch (out : List OutEvent) : List OutEvent := (out.reverse.dropWhile (· != .latch)).reverse

/-- The bytes of the SER events, in order. -/
def serBytes (out : List OutEvent) : List Byte :=
  out.filterMap fun e => match e with
    | .ser b => some b
    | _ => none

/-- L (R229): the last 16*T bytes sent before the last LATCH, in emission order. -/
def latchedBytes (s : State) : List Byte :=
  let bs := serBytes (upToLatch s.out)
  bs.drop (bs.length - 16 * s.cfg.panels)

/-- Whether the display lights the pixel at panel-remapped column `x` and framebuffer row `y` (R229). -/
def displayLit (s : State) (x y : Nat) : Bool :=
  s.rowEn && (y % 4 == s.rowAddr.toNat) && decide (y < panelHeight) &&
  match (latchedBytes s)[4 * (x / 8) + (3 - y / 4)]? with
  | some b => !b.getLsbD (7 - x % 8)
  | none => false

end Sys2Proof.Machine
end

