-- ==== Sys2Proof/Machine/Micro.lean ====
section
/-! DEFINITION. What each micro-operation does (R10, R25). -/

namespace Sys2Proof.Machine

/-- FB[i] after one byte update of ShiftLeft (R208). -/
def shiftedLeft (s : State) (i : Nat) : Byte :=
  let low : Byte := if i % s.cfg.globalRowBytes = s.cfg.globalRowBytes - 1 then 0x01#8 else fbRead s (i + 1) >>> 7
  (fbRead s i <<< 1) ||| low

/-- FB[i] after one byte update of ShiftRight (R208). -/
def shiftedRight (s : State) (i : Nat) : Byte :=
  let high : Byte := if i % s.cfg.globalRowBytes = 0 then 0x80#8 else (fbRead s (i - 1) &&& 1#8) <<< 7
  (fbRead s i >>> 1) ||| high

/-- A write of byte `i` of FB, which must be below FB_BYTES (R61; log entry 13). -/
def checkedFbWrite (s : State) (i : Nat) (v : Byte) : Host.Outcome State Fault Refusal :=
  if i < s.cfg.fbBytes then .next (fbWrite s i v) else .fault (.fbRange i)

/-- The micro-operation `op`, as one indivisible step. -/
def perform (op : MicroOp) (s : State) : Host.Outcome State Fault Refusal :=
  match op with
  | .plot x y mode v => .next (plot s x y mode v)
  | .fbWrite i v => checkedFbWrite s i v
  | .shiftLeftByte i => checkedFbWrite s i (shiftedLeft s i)
  | .shiftRightByte i => checkedFbWrite s i (shiftedRight s i)
  | .setFont base => .next { s with fontBase := base, fontValid := true }
  | .setText i v => .next { s with text := Memory.write textUnlisted s.text i.toNat v }
  | .startMarquee chars len width height ox oy =>
    .next { s with
      mqText := Memory.writeList textUnlisted s.mqText 0 (chars.take len.toNat)
      mqLen := len, mqWidth := width, mqHeight := height, mqOX := ox, mqOY := oy }
  | .moveMarquee ox oy => .next { s with mqOX := ox, mqOY := oy }
  | .setResult v => .next { s with result := v }
  | .readTick => .next { s with result := s.tick }
  | .readTickByte lane => .next { s with result := tickLane s.tick lane }
  | .saveDisableIe src => .next (writeIe src false { s with result := if ieBit s src then 1#32 else 0#32 })
  | .restoreIe src b => .next (writeIe src b s)
  | .readFlag k => .next { s with result := (readFlag s k).setWidth 32 }
  | .clearFlag k => .next (writeFlag k 0x00#8 s)

/-- The micro-operations `ops` one after another, with no handler between them. -/
def performAll : List MicroOp → State → Host.Outcome State Fault Refusal
  | [], s => .next s
  | op :: ops, s =>
    match perform op s with
    | .next t => performAll ops t
    | .fault r => .fault r
    | .refused r => .refused r

/-- The command in progress, run to its end with no handler between its micro-operations. -/
def finish (s : State) : Host.Outcome State Fault Refusal := performAll s.cur { s with cur := [] }

end Sys2Proof.Machine
end

