-- ==== Sys2Proof/Machine/Dispatch.lean ====
section
/-! DEFINITION. Issue of each command (10_state.md R25): one arm per constructor of Instr, one meaning per arm. -/

namespace Sys2Proof.Machine

def exec (i : Instr) (s : State) : Host.Outcome State Fault Refusal :=
  match i with
  | .writePixel mode v => Sys2Proof.Machine.execWritePixel mode v s
  | .clear v => Sys2Proof.Machine.execClear v s
  | .selectFont => Sys2Proof.Machine.execSelectFont s
  | .charWidth ch => Sys2Proof.Machine.execCharWidth ch s
  | .drawChar mode ch => Sys2Proof.Machine.execDrawChar mode ch s
  | .textWrite ch => Sys2Proof.Machine.execTextWrite ch s
  | .drawString mode len => Sys2Proof.Machine.execDrawString mode len s
  | .drawLine mode => Sys2Proof.Machine.execDrawLine mode s
  | .drawBox mode => Sys2Proof.Machine.execDrawBox mode s
  | .drawFilledBox mode => Sys2Proof.Machine.execDrawFilledBox mode s
  | .drawCircle mode => Sys2Proof.Machine.execDrawCircle mode s
  | .drawTestPattern kind => Sys2Proof.Machine.execDrawTestPattern kind s
  | .drawMarquee len => Sys2Proof.Machine.execDrawMarquee len s
  | .stepMarquee => Sys2Proof.Machine.execStepMarquee s
  | .tickRead => Sys2Proof.Machine.execTickRead s
  | .tickReadByte idx => Sys2Proof.Machine.execTickReadByte idx s
  | .ieSaveDisable src => Sys2Proof.Machine.execIeSaveDisable src s
  | .ieRestore src => Sys2Proof.Machine.execIeRestore src s
  | .flagRead idx => Sys2Proof.Machine.execFlagRead idx s
  | .flagClear idx => Sys2Proof.Machine.execFlagClear idx s

end Sys2Proof.Machine
end

