-- ==== Sys2Proof/Machine/HostAccess.lean ====
section
/-! DEFINITION. The host's variables (R102), its accesses to the registers (R22, R337) and its
reads of the fault record (R39). -/

namespace Sys2Proof.Machine

/-- The value bound to the name `x`; a variable never written reads 0 (log entry 18). -/
def readVar : List (Nat × Word) → Nat → Word
  | [], _ => 0#32
  | (y, v) :: vs, x => if y = x then v else readVar vs x

/-- The bindings with `x` bound to `v`, names rising. -/
def writeVar : List (Nat × Word) → Nat → Word → List (Nat × Word)
  | [], x, v => [(x, v)]
  | (y, w) :: vs, x, v =>
    if x < y then (x, v) :: (y, w) :: vs
    else if x = y then (x, v) :: vs
    else (y, w) :: writeVar vs x v

/-- The host variable `x` (R102). -/
def hostVar (s : State) (x : Nat) : Word := readVar s.hostVars x

/-- The host sets its variable `x`. -/
def setHostVar (x : Nat) (v : Word) (s : State) : State := { s with hostVars := writeVar s.hostVars x v }

/-- One access of the host to a register (R22, R102): an argument register keeps the low 16 bits of a variable. -/
def hostAccess (a : HostAccess) (s : State) : State :=
  match a with
  | .setArg r v => setArg r v s
  | .setArgVar r x => setArg r ((hostVar s x).setWidth 16) s
  | .getResult x => setHostVar x s.result s

/-- What the host reads of the fault record (R39); FAULT_CODE is zero-extended to the width of a variable (log entry 25). -/
def faultValue (s : State) : FaultReg → Word
  | .code => s.faultCode.setWidth 32
  | .cmd => s.faultCmd

/-- The sum of bk * 2^(8k) for k in 0..n-1, bk being the host variable `b + k` (R103). -/
def laneSum (s : State) (b : Nat) : Nat → Word
  | 0 => 0#32
  | n + 1 => laneSum s b n + hostVar s (b + n) <<< (8 * n)

end Sys2Proof.Machine
end

