-- ==== Sys2Proof/Machine/Issue.lean ====
section
/-! DEFINITION. One step of the global sequence (20_memory.md R74): presenting a command word (R25), the host's other
actions (R22, R39), dispatch (R291), the next micro-operation, and the events of the environment (R38, R288). -/

namespace Sys2Proof.Machine

/-- The host presents the word `w` (R25). With a fault recorded the block accepts no word and nothing changes (R281; log
entry 6); a word that does not decode is ILLEGAL_COMMAND (R282); any other word is issued. -/
def presentWord (w : Word) (s : State) : Host.Outcome State Fault Refusal :=
  if s.faultCode ≠ faultNone then .next s
  else
    match decode s.cfg.tickWidth w with
    | some i => exec i s
    | none => .next (raiseFault .illegalCommand w s)

/-- The main context is idle (R22): no handler runs, no source is eligible (R291) and CUR is empty. -/
def idle (s : State) : Bool := s.ctx == .main && (nextSource s).isNone && s.cur.isEmpty

/-- One step of the block itself (R291, R74): the return of a handler, else entry to the eligible source of highest
priority, else the micro-operation at the head of CUR, else nothing. -/
def blockStep (s : State) : Host.Outcome State Fault Refusal :=
  match s.ctx with
  | .handler => .next (returnFromHandler s)
  | .main =>
    match nextSource s with
    | some n => .next (enter n s)
    | none =>
      match s.cur with
      | op :: rest => perform op { s with cur := rest }
      | [] => .next s

/-- An action `act` of the host at the head of `env`, with `rest` to follow: taken when the main context is idle; until
then the block takes its own steps and the action waits (log entry 5). -/
def hostStep (rest : List EnvEvent) (act : State → Host.Outcome State Fault Refusal) (s : State) :
    Host.Outcome State Fault Refusal :=
  if idle s then act { s with env := rest } else blockStep s

/-- One step of the global sequence: what the head of `env` says happens next (log entries 3, 24 and 25). -/
def sequenceStep (s : State) : Host.Outcome State Fault Refusal :=
  match s.env with
  | [] => blockStep s
  | .wait :: rest => blockStep { s with env := rest }
  | .request n :: rest => .next (requestSource n { s with env := rest })
  | .busBusy b :: rest => .next { s with env := rest, busBusy := b }
  | .access a :: rest => hostStep rest (fun t => .next (hostAccess a t)) s
  | .earlyAccess a :: rest => .next (hostAccess a { s with env := rest })
  | .readFault r x :: rest => .next (setHostVar x (faultValue s r) { s with env := rest })
  | .issue w :: rest => hostStep rest (presentWord w) s
  | .sumLanes x b n :: rest => .next (setHostVar x (laneSum s b n) { s with env := rest })

/-- One step, refused when the configuration is outside R7 (I12, I13; log entry 14). -/
def checkedStep (s : State) : Host.Outcome State Fault Refusal :=
  if s.cfg.valid then sequenceStep s else .refused .invalidConfig

/-- `s` with the word `w` about to be accepted: it is the next event, and whatever keeps the block from accepting it at
once (a handler, an eligible request, a command in progress, a recorded fault) is taken away (log entry 7). -/
def readyForWord (w : Word) (s : State) : State :=
  { s with
    env := .issue w :: s.env
    ctx := .main
    pend := s.pend &&& ~~~s.ie
    cur := []
    faultCode := faultNone
    faultCmd := if s.faultCode = faultNone then s.faultCmd else 0#32 }

end Sys2Proof.Machine
end

