-- ==== Sys2Proof/Machine/Step.lean ====
section
/-! DEFINITION. The step, and where the next command word is placed. -/

namespace Sys2Proof.Machine

/-- One step of the machine (R74). -/
def step (s : State) : Host.Outcome State Fault Refusal := checkedStep s

/-- `s` with the word of the low `nbits` bits of `w` as the word the host presents next, so that the next step accepts it
(log entry 7). The block fetches nothing (R24): the host presents every word. -/
def State.withFetchWord (s : State) (nbits w : Nat) : State := readyForWord (tableWord nbits w) s

end Sys2Proof.Machine
end

