-- ==== Sys2Proof/Machine/HostProgram.lean ====
section
/-! DEFINITION. The host's program (30_encoding.md R102) and the pseudo-instructions with their expansions (R103), as
lists of events. The host's variables are named by the caller: `rs` the saved enable Rs, `rf` and `rt` the results Rf and Rt,
`b` the first of the consecutive lane variables b0, b1, ... -/

namespace Sys2Proof.Machine

/-- `SETA r, v` with `v` any integer, of which the register keeps 16 bits. -/
def seta (r : ArgReg) (v : Int) : EnvEvent := .access (.setArg r (BitVec.ofInt 16 v))

/-- One command. -/
def command (i : Instr) : EnvEvent := .issue (encode i)

/-- ENABLE src (R103). -/
def enableSource (n : Source) : List EnvEvent := [seta .a0 1, command (.ieRestore n)]

/-- DISABLE src (R103). -/
def disableSource (n : Source) : List EnvEvent := [command (.ieSaveDisable n)]

/-- GET (R102). -/
def get (x : Nat) : EnvEvent := .access (.getResult x)

/-- CRIT_BEGIN src, Rs (R103): the prior enable goes into `rs`. -/
def critBegin (n : Source) (rs : Nat) : List EnvEvent := [command (.ieSaveDisable n), get rs]

/-- CRIT_END src, Rs (R103): the enable is restored from `rs`. -/
def critEnd (n : Source) (rs : Nat) : List EnvEvent := [.access (.setArgVar .a0 rs), command (.ieRestore n)]

/-- `TICK_READ_BYTE idx=k ; GET bk` for each lane k below `n`. -/
def readLanes (b n : Nat) : List EnvEvent :=
  (List.range n).flatMap fun k => [command (.tickReadByte (BitVec.ofNat 8 k)), get (b + k)]

/-- TICK_ATOMIC Rt (R103): the byte lanes read under a mask of TIMER, then added up into `rt`. -/
def tickAtomic (tw : TickWidth) (rt rs b : Nat) : List EnvEvent :=
  critBegin .timer rs ++ readLanes b tw.lanes ++ critEnd .timer rs ++ [.sumLanes rt b tw.lanes]

/-- The source whose handler sets FLAG[k] (R264). -/
def edgeSource (k : Fin 2) : Source := if k = 0 then .edge0 else .edge1

/-- FLAG_TAC k, Rf (R103, R265): the flag read and cleared under a mask of its edge. -/
def flagTestAndClear (k : Fin 2) (rf rs : Nat) : List EnvEvent :=
  critBegin (edgeSource k) rs ++
    [command (.flagRead (BitVec.ofNat 8 k.val)), get rf, command (.flagClear (BitVec.ofNat 8 k.val))] ++
    critEnd (edgeSource k) rs

/-- PUTS from index `i` (R103). -/
def putText : Nat → List Byte → List EnvEvent
  | _, [] => []
  | i, c :: cs => seta .a0 i :: command (.textWrite c) :: putText (i + 1) cs

end Sys2Proof.Machine
end

