-- ==== Sys2Proof/Safety.lean ====
section
/-! DEFINITION. The terms the statements use: the invariant of a running machine, the pixel table of R129, a font resource
that lies inside FONT_ROM, font reads that fail, and the conditions of R335 on the platform. -/

namespace Sys2Proof.Machine

/-- A micro-operation's indices are in range: FB below FB_BYTES (R61), a tick lane below TICK_WIDTH/8 (R95), and as many
marquee bytes as MQ_LEN says (R205). -/
def MicroOp.inRange (c : Config) : MicroOp → Bool
  | .fbWrite i _ => decide (i < c.fbBytes)
  | .shiftLeftByte i => decide (i < c.fbBytes)
  | .shiftRightByte i => decide (i < c.fbBytes)
  | .readTickByte lane => decide (lane.toNat < c.tickWidth.lanes)
  | .startMarquee chars len _ _ _ _ => decide (chars.length = len.toNat)
  | .plot _ _ _ _ => true
  | .setFont _ => true
  | .setText _ _ => true
  | .moveMarquee _ _ => true
  | .setResult _ => true
  | .readTick => true
  | .saveDisableIe _ => true
  | .restoreIe _ _ => true
  | .readFlag _ => true
  | .clearFlag _ => true

/-- What holds of the machine between two steps:
the configuration is one R7 allows; the three byte stores are in canonical form, inside their sizes (R60);
TICK has TICK_WIDTH bits (R32); a flag is 0x00 or 0x01 (R33, R262); no handler is running (R293);
CUR's micro-operations are in range; FAULT_CODE is one of 0..4, FAULT_CMD is 0 while there is no fault, and the main
context has no work after a fault (R281); FONT_BASE is 0 until a font is selected (R29); and the rows lit are those of the
phase before PHASE, or none has been scanned yet (R221, R322). -/
abbrev State.Inv (s : State) : Prop :=
  s.cfg.valid = true ∧
  Memory.wf fbUnlisted s.cfg.fbBytes s.fb = true ∧
  Memory.wf textUnlisted textSize s.text = true ∧
  Memory.wf textUnlisted marqueeMax s.mqText = true ∧
  s.tick.toNat < 2 ^ s.cfg.tickWidth.bits ∧
  (s.flag0 = 0#8 ∨ s.flag0 = 1#8) ∧
  (s.flag1 = 0#8 ∨ s.flag1 = 1#8) ∧
  s.ctx = .main ∧
  s.cur.all (MicroOp.inRange s.cfg) = true ∧
  s.faultCode.toNat ≤ 4 ∧
  (s.faultCode = faultNone → s.faultCmd = 0#32) ∧
  (s.faultCode ≠ faultNone → s.cur = []) ∧
  (s.fontValid = false → s.fontBase = 0#16) ∧
  (s.rowEn = true → s.phase = s.rowAddr + 1#2) ∧
  (s.rowEn = false → s.phase = 0#2 ∧ s.rowAddr = 0#2 ∧ s.out = [])

/-- The table of R129: whether the pixel is lit after a `Plot` with the value `v`, when it was lit (`true`) or dark. -/
def litAfter (nor : NorVariant) (mode : Mode) (v lit : Bool) : Bool :=
  match mode, v with
  | .normal, v => v
  | .inverse, v => !v
  | .toggle, true => !lit
  | .toggle, false => lit
  | .or, true => true
  | .or, false => lit
  | .nor, true => (match nor with
    | .doc => true
    | .library => false)
  | .nor, false => lit

/-- The selected font resource lies inside FONT_ROM: its header, its width table if it has one, and its bitmaps (R142,
R144). -/
def fontFits (s : State) : Bool :=
  match fontRead s 2, fontRead s 3, fontRead s 5, fontFixed s with
  | some width, some height, some count, some fixed =>
    if fixed then
      decide (s.fontBase.toNat + 6 + count.toNat * bytesPerColumn height.toNat * width.toNat ≤ s.cfg.fontRomSize)
    else
      match widthSum s count.toNat with
      | some total =>
        decide (s.fontBase.toNat + 6 + count.toNat + bytesPerColumn height.toNat * total ≤ s.cfg.fontRomSize)
      | none => false
  | _, _, _, _ => false

/-- The five font commands (R284). -/
def usesFont : Instr → Bool
  | .charWidth _ => true
  | .drawChar _ _ => true
  | .drawString _ _ => true
  | .drawMarquee _ => true
  | .stepMarquee => true
  | .writePixel _ _ => false
  | .clear _ => false
  | .selectFont => false
  | .textWrite _ => false
  | .drawLine _ => false
  | .drawBox _ => false
  | .drawFilledBox _ => false
  | .drawCircle _ => false
  | .drawTestPattern _ => false
  | .tickRead => false
  | .tickReadByte _ => false
  | .ieSaveDisable _ => false
  | .ieRestore _ => false
  | .flagRead _ => false
  | .flagClear _ => false

/-- FB is in canonical form, inside its size (R60). -/
abbrev State.fbWf (s : State) : Prop := Memory.wf fbUnlisted s.cfg.fbBytes s.fb = true

/-- The micro-operation does not write byte `a` of FB: a `Plot` writes the byte of R63, the others the byte they name. -/
def MicroOp.misses (c : Config) (a : Nat) : MicroOp → Bool
  | .plot x y _ _ =>
    match pixelAddr c x y with
    | some (i, _) => i != a
    | none => true
  | .fbWrite i _ => i != a
  | .shiftLeftByte i => i != a
  | .shiftRightByte i => i != a
  | .setFont _ => true
  | .setText _ _ => true
  | .startMarquee _ _ _ _ _ _ => true
  | .moveMarquee _ _ => true
  | .setResult _ => true
  | .readTick => true
  | .readTickByte _ => true
  | .saveDisableIe _ => true
  | .restoreIe _ _ => true
  | .readFlag _ => true
  | .clearFlag _ => true

/-- The command `i` completes from `s`, and what it does is to plot the points `ps` with v = 1: a pixel listed n times
takes the table of R129 n times, and bytes of FB that hold no pixel of `ps` are unchanged, as is all other state. -/
def drawsPoints (i : Instr) (mode : Mode) (ps : List (Int × Int)) (s : State) : Prop :=
  ∃ t, exec i s = .next { s with cur := plotAll mode true ps } ∧
    performAll (plotAll mode true ps) { s with cur := [] } = .next t ∧
    t = { s with cur := [], fb := t.fb } ∧
    (∀ x y, pixelLit t x y =
      (pixelLit s x y).map (litAfter s.cfg.norVariant mode true)^[ps.count (x, y)]) ∧
    ∀ a, (plotAll mode true ps).all (MicroOp.misses s.cfg a) = true → fbRead t a = fbRead s a

/-- The columns from the start of a string to its glyph number `k`: each glyph before it takes its width and one
separator column (R171). -/
def stringColumn (s : State) (chars : List Byte) (k : Nat) : Int :=
  (((chars.take k).map fun c => (charWidth s c).getD 0 + 1).sum : Nat)

/-- One axis of R206, as the spec writes it: where the offset goes. -/
def wrapped (offset extent limit : Int) : Int :=
  if offset < -extent then limit else if offset > limit then -extent else offset

/-- The row of R100's table accepts the word: OP, RSV and the unused fields match (R98), MODE and SRC are not reserved where
the row uses them, and IDX is in range. -/
def rowAccepts (tw : TickWidth) (row : OpcodeRow) (w : Word) : Prop :=
  w &&& row.mask = row.pattern ∧
  (row.mask.extractLsb' 8 3 = 0#3 → (w.extractLsb' 8 3).toNat ≤ 4) ∧
  (row.mask.extractLsb' 14 2 = 0#2 → w.extractLsb' 14 2 ≠ 3#2) ∧
  (w.extractLsb' 0 8 = 0x11#8 → (w.extractLsb' 16 8).toNat < tw.lanes) ∧
  (w.extractLsb' 0 8 = 0x14#8 ∨ w.extractLsb' 0 8 = 0x15#8 → (w.extractLsb' 16 8).toNat < nEdge)

/-- `n` entries to the timer handler, one after another. -/
def timerRuns : Nat → State → State
  | 0, s => s
  | n + 1, s => timerRuns n (enter .timer s)

/-! ## Font reads that fail -/

/-- A read that drawing the code point `c` on the grid makes lies past FONT_ROM (R150): for a space, one of its width or the
height; for another code point, one of the header, and when it is renderable one of its width, the height, the widths before
it or a byte of its bitmap. -/
def glyphReadsFail (s : State) (c : Byte) : Prop :=
  if c = spaceChar then charWidth s spaceChar = none ∨ fontHeight s = none
  else glyphIndex s c = none ∨ ∃ gi, glyphIndex s c = some (some gi) ∧
    (glyphWidth s gi = none ∨ fontHeight s = none ∨ ∃ w h, glyphWidth s gi = some w ∧ fontHeight s = some h ∧
      (glyphOffset s gi (bytesPerColumn h) = none ∨ ∃ off, glyphOffset s gi (bytesPerColumn h) = some off ∧
        ∃ j < w, ∃ i < bytesPerColumn h,
          fontRead s (glyphByteOffset s.cfg.glyphLayout off w (bytesPerColumn h) j i) = none))

/-- What a string advances over the code points `cs` (R171): the width and one for each, and nothing for a width of 0. -/
def stringAdvance (s : State) (cs : List Byte) : Nat :=
  (cs.map fun c => match charWidth s c with
    | some 0 => 0
    | some w => w + 1
    | none => 0).sum

/-- A read that DrawString makes lies past FONT_ROM (R171): the height, or a read of a glyph that the string comes to before
it leaves the grid. -/
def stringReadsFail (s : State) (x y : Int) (chars : List Byte) : Prop :=
  x < s.cfg.gridWidth ∧ y < s.cfg.gridHeight ∧
  (fontHeight s = none ∨ ∃ h, fontHeight s = some h ∧ 0 ≤ y + (h : Int) ∧
    ∃ k c, chars[k]? = some c ∧ x + (stringAdvance s (chars.take k) : Int) < s.cfg.gridWidth ∧ glyphReadsFail s c)

/-- Glyph number `k` of a marquee at column `ox` is the one a fast shift draws (R208): its right end is the first that
`reaches` holds for. -/
def entersAt (s : State) (reaches : Int → Bool) (ox : Int) (chars : List Byte) (k : Nat) : Prop :=
  (∃ c w, chars[k]? = some c ∧ charWidth s c = some w ∧ reaches (ox + stringColumn s chars k + w) = true) ∧
  ∀ j < k, ∀ c w, chars[j]? = some c → charWidth s c = some w → reaches (ox + stringColumn s chars j + w) = false

/-- A read that the glyph of a fast shift makes lies past FONT_ROM (R208): a width up to the entering glyph, or a read of that
glyph, drawn on the grid. -/
def shiftReadsFail (s : State) (reaches : Int → Bool) (ox oy : Int) (chars : List Byte) : Prop :=
  ∃ k c, chars[k]? = some c ∧
    (∀ j < k, ∀ d w, chars[j]? = some d → charWidth s d = some w →
      reaches (ox + stringColumn s chars j + w) = false) ∧
    (charWidth s c = none ∨ ∃ w, charWidth s c = some w ∧ reaches (ox + stringColumn s chars k + w) = true ∧
      ox + stringColumn s chars k < s.cfg.gridWidth ∧ oy < s.cfg.gridHeight ∧ glyphReadsFail s c)

/-- A font read of the command, issued in `s` with a font selected, lies past FONT_ROM (R284). -/
def fontReadsFail (i : Instr) (s : State) : Prop :=
  match i with
  | .charWidth ch => charWidth s ch = none
  | .drawChar _ ch => s.a0.toInt < s.cfg.gridWidth ∧ s.a1.toInt < s.cfg.gridHeight ∧ glyphReadsFail s ch
  | .drawString _ len => stringReadsFail s s.a0.toInt s.a1.toInt (textPrefix s len.toNat)
  | .drawMarquee len =>
    (∃ c ∈ textPrefix s len.toNat, charWidth s c = none) ∨ fontHeight s = none ∨
      stringReadsFail s s.a0.toInt s.a1.toInt (textPrefix s len.toNat)
  | .stepMarquee =>
    let ox := wrapped (s.mqOX + s.a0.toInt) s.mqWidth s.cfg.gridWidth
    let oy := wrapped (s.mqOY + s.a1.toInt) s.mqHeight.toNat s.cfg.gridHeight
    let chars := mqTextPrefix s s.mqLen.toNat
    if s.cfg.marqueeFastShift = true ∧ s.a1.toInt = 0 ∧ s.a0.toInt = -1 then
      shiftReadsFail s (fun e => decide (e ≥ s.cfg.gridWidth)) ox oy chars
    else if s.cfg.marqueeFastShift = true ∧ s.a1.toInt = 0 ∧ s.a0.toInt = 1 then
      shiftReadsFail s (fun e => decide (e ≥ 0)) ox oy chars
    else stringReadsFail s ox oy chars
  | .writePixel _ _ => False
  | .clear _ => False
  | .selectFont => False
  | .textWrite _ => False
  | .drawLine _ => False
  | .drawBox _ => False
  | .drawFilledBox _ => False
  | .drawCircle _ => False
  | .drawTestPattern _ => False
  | .tickRead => False
  | .tickReadByte _ => False
  | .ieSaveDisable _ => False
  | .ieRestore _ => False
  | .flagRead _ => False
  | .flagClear _ => False

/-! ## The platform's conditions (R335, R296), in the form D49 gives them. No step needs them. -/

/-- The next step is a TIMER request. -/
def timerArrives (s : State) : Bool :=
  match s.env with
  | .request .timer :: _ => true
  | _ => false

/-- The next step is the main context's: it performs its next micro-operation, if it has one, or takes the host's action. -/
def mainRuns (s : State) : Bool :=
  s.ctx == .main && (nextSource s).isNone &&
  match s.env with
  | [] => true
  | .wait :: _ => true
  | .access _ :: _ => true
  | .issue _ :: _ => true
  | .request _ :: _ => false
  | .busBusy _ :: _ => false
  | .earlyAccess _ :: _ => false
  | .readFault _ _ :: _ => false
  | .sumLanes _ _ _ :: _ => false

/-- A TIMER request that comes next finds the one before it served, its handler returned (R335, the first two
requirements). -/
def timerInTime (s : State) : Bool := !timerArrives s || (s.ctx == .main && !pendBit s .timer)

/-- The first two requirements of R335 over the next `n` steps: the scan ends within the period. -/
def timersInTime : Nat → State → Bool
  | 0, _ => true
  | n + 1, s => timerInTime s &&
    match step s with
    | .next t => timersInTime n t
    | _ => true

/-- The third requirement of R335, which is R296's assumption, over the next `n` steps: between two TIMER requests the main
context has a step. `owed` says that a request has come and the main context has had none since. -/
def mainProgresses : Nat → Bool → State → Bool
  | 0, _, _ => true
  | n + 1, owed, s => !(owed && timerArrives s) &&
    match step s with
    | .next t => mainProgresses n (timerArrives s || (owed && !mainRuns s)) t
    | _ => true

/-- The platform keeps R335 from `s` on. -/
def platformKept (s : State) : Prop := ∀ n, timersInTime n s = true ∧ mainProgresses n false s = true

end Sys2Proof.Machine
end

