-- ==== Sys2Proof/Certificates/Slice0/Obligations.lean ====
section
/-! DEFINITION. The statements about the engine that are to be proved. R<n> are the numbered rules of spec/. -/

open Sys2Proof Sys2Proof.Machine

/-! ## Encoding (30_encoding.md) -/

/-- Decoding the word of a well-formed command gives the command back, with every field at every value (R91, R97). -/
def Obligations.DecodeEncode : Prop :=
  ∀ (tw : TickWidth) (i : Instr), i.wf tw = true → decode tw (encode i) = some i

/-- Each word has at most one meaning: a word that decodes is the word of the command it decodes to, and that command is
well formed. -/
def Obligations.EncodeDecode : Prop :=
  ∀ (tw : TickWidth) (w : Word) (i : Instr), decode tw w = some i → encode i = w ∧ i.wf tw = true

/-- R100: a word decodes to a command of a row of the opcode table exactly when that row accepts it, and to nothing exactly
when no row does. -/
def Obligations.DecodeFollowsTable : Prop :=
  ∀ (tw : TickWidth) (w : Word),
    (∀ row ∈ opcodeTable, (∃ i, decode tw w = some i ∧ i.row = row) ↔ rowAccepts tw row w) ∧
    (decode tw w = none ↔ ∀ row ∈ opcodeTable, ¬ rowAccepts tw row w)

/-- The words of R104, written out from the fields of R91. -/
def Obligations.SampleWords : Prop :=
  ∀ tw : TickWidth,
    decode tw 0x00000801#32 = some (.writePixel .normal true) ∧
    decode tw 0x00000A01#32 = some (.writePixel .toggle true) ∧
    decode tw 0x00000802#32 = some (.clear true) ∧
    decode tw 0x00000002#32 = some (.clear false) ∧
    decode tw 0x00000003#32 = some .selectFont ∧
    decode tw 0x00410004#32 = some (.charWidth 0x41#8) ∧
    decode tw 0x00410005#32 = some (.drawChar .normal 0x41#8) ∧
    decode tw 0x00410006#32 = some (.textWrite 0x41#8) ∧
    decode tw 0x00020007#32 = some (.drawString .normal 2#8) ∧
    decode tw 0x00000108#32 = some (.drawLine .inverse) ∧
    decode tw 0x0000200C#32 = some (.drawTestPattern .stripe0) ∧
    decode tw 0x0001000D#32 = some (.drawMarquee 1#8) ∧
    decode tw 0x0000000E#32 = some .stepMarquee ∧
    decode .w32 0x00030011#32 = some (.tickReadByte 3#8) ∧
    decode tw 0x00008012#32 = some (.ieSaveDisable .edge1) ∧
    decode tw 0x00000013#32 = some (.ieRestore .timer) ∧
    decode tw 0x00010015#32 = some (.flagClear 1#8) ∧
    decode tw 0x00000501#32 = none ∧
    decode tw 0x00000803#32 = none ∧
    decode tw 0x0000C012#32 = none ∧
    decode tw 0x01000002#32 = none ∧
    decode tw 0x00020014#32 = none

/-! ## The step and the host (10_state.md) -/

/-- A step that presents a word runs the command it decodes to: when the main context is idle and no fault is recorded, the
word at the head of `env` (the model's list of what arrives, log entry 3) is taken off and the step is `exec` of the decoded
command (R25). A word that does not decode is recorded with ILLEGAL_COMMAND, code 1, and changes nothing else (R281,
R282). -/
def Obligations.StepRunsDecoded : Prop :=
  ∀ (s : State) (w : Word) (rest : List EnvEvent),
    s.cfg.valid = true → s.env = .issue w :: rest → idle s = true → s.faultCode = faultNone →
    (∀ i, decode s.cfg.tickWidth w = some i → step s = exec i { s with env := rest }) ∧
    (decode s.cfg.tickWidth w = none → step s = .next { s with env := rest, faultCode := 1#8, faultCmd := w })

/-- R337, R23: what comes of a host that breaks R22 by an access that does not wait (`earlyAccess` of the model's `env`, log
entry 24). The access is made at once; a read takes RESULT as it then is. A write cannot corrupt a command in progress: each
micro-operation does the same with the register written before it. RESULT is the last thing a command writes, so a read
before completion takes the old value. That a write from a host variable keeps its low 16 bits, and that a host variable has
the 32 bits of RESULT, are the model's choice (log entry 18, DESIGN CHOICE; R102 and R103 are silent). -/
def Obligations.EarlyAccess : Prop :=
  (∀ (s : State) (a : HostAccess) (rest : List EnvEvent), s.cfg.valid = true → s.env = .earlyAccess a :: rest →
    ∃ t, step s = .next t ∧
      t = { s with env := rest, a0 := t.a0, a1 := t.a1, a2 := t.a2, a3 := t.a3, hostVars := t.hostVars } ∧
      (∀ r v, a = .setArg r v → argBits t r = v ∧ (∀ q, q ≠ r → argBits t q = argBits s q) ∧ t.hostVars = s.hostVars) ∧
      (∀ r x, a = .setArgVar r x → argBits t r = (hostVar s x).setWidth 16 ∧ (∀ q, q ≠ r → argBits t q = argBits s q) ∧
        t.hostVars = s.hostVars) ∧
      (∀ x, a = .getResult x → hostVar t x = s.result ∧ (∀ y, y ≠ x → hostVar t y = hostVar s y) ∧
        ∀ q, argBits t q = argBits s q)) ∧
  (∀ (s t : State) (r : ArgReg) (v : Half) (op : MicroOp), perform op s = .next t →
    perform op (setArg r v s) = .next (setArg r v t)) ∧
  (∀ (s m t : State) (i : Instr) (done left : List MicroOp), exec i s = .next m → m.cur = done ++ left → left ≠ [] →
    performAll done { m with cur := left } = .next t → t.result = s.result)

/-- The model's own choices. Log entry 7 (DESIGN CHOICE): from any state with a valid configuration, the step after
`withFetchWord` runs the command whose word was placed. Log entry 14 (DEDUCED from I12 and I13): any other configuration is
refused. -/
def Obligations.FetchWordRuns : Prop :=
  ∀ (s : State) (i : Instr),
    (s.cfg.valid = true → i.wf s.cfg.tickWidth = true →
      step (s.withFetchWord 32 (encode i).toNat) =
        exec i { s with
          ctx := .main, pend := s.pend &&& ~~~s.ie, cur := [], faultCode := faultNone,
          faultCmd := if s.faultCode = faultNone then s.faultCmd else 0#32 }) ∧
    (s.cfg.valid = false → step s = .refused .invalidConfig)

/-- R25, R330: CUR takes on work in one way only. A step that changes CUR either takes its head off or accepts a word while
CUR is empty and FAULT_CODE is NONE; neither while a source is eligible, which is R291 for the first and the model's reading
of R22 and R291 for the second (log entry 5, DEDUCED). The word stands at the head of the model's `env` (log entry 3). -/
def Obligations.WordsAcceptedOnlyWhenIdle : Prop :=
  ∀ s t : State, step s = .next t → t.cur ≠ s.cur →
    s.ctx = .main ∧ nextSource s = none ∧
    ((∃ op, s.cur = op :: t.cur) ∨
     (s.cur = [] ∧ s.faultCode = faultNone ∧ ∃ w rest, s.env = .issue w :: rest ∧ t.env = rest))

/-- R22: only the host writes A0..A3, and a host that keeps R22 writes them only while CUR is empty. The write stands at the
head of the model's `env` (log entry 3); that it also waits until no source is eligible is log entry 5 (DEDUCED), and a write
that does not wait is the `earlyAccess` of R337 (log entry 24). A write from a host variable is log entry 18's. -/
def Obligations.ArgumentsWrittenOnlyByHost : Prop :=
  ∀ s t : State, step s = .next t →
    (t.a0, t.a1, t.a2, t.a3) ≠ (s.a0, s.a1, s.a2, s.a3) →
    ∃ a rest, t = hostAccess a { s with env := rest } ∧
      (s.env = .access a :: rest ∧ s.ctx = .main ∧ nextSource s = none ∧ s.cur = [] ∨ s.env = .earlyAccess a :: rest)

/-- R25: when nothing arrives from the environment and no source is pending, the command in progress is complete after as
many steps as CUR has micro-operations, and the state is the one `finish` gives. -/
def Obligations.StepsFinishTheCommand : Prop :=
  ∀ s : State, s.cfg.valid = true → s.env = [] → s.pend = 0#3 → s.ctx = .main →
    s.cur.all (MicroOp.inRange s.cfg) = true →
    ∃ t, finish s = .next t ∧ t.cur = [] ∧ Host.Core.run Sys2Proof.core s.cur.length s = .next t

/-! ## Pixels (20_memory.md, 40_framebuffer.md) -/

/-- R66: byte GROWB*py + b of framebuffer row y' holds the global columns 8b..8b+7 of the global row y' + 16*py, bit
7 - k the column 8b + k. -/
def Obligations.RowLayout : Prop :=
  ∀ (c : Config) (y' py b k : Nat), y' < 16 → py < c.hp → b < 4 * c.wp → k < 8 →
    pixelAddr c ((8 * b + k : Nat) : Int) ((y' + 16 * py : Nat) : Int) =
      some (4 * (c.wp * c.hp) * y' + (4 * c.wp * py + b), 0x80#8 >>> k)

/-- The coordinate mapping of R63 is a bijection between the grid and the bits of FB: two pixels never share a bit, every
pixel's byte lies in FB, and every bit of FB is a pixel's. -/
def Obligations.AddrIsBijective : Prop :=
  ∀ c : Config,
    (∀ x y x' y' i m, pixelAddr c x y = some (i, m) → pixelAddr c x' y' = some (i, m) → x = x' ∧ y = y') ∧
    (∀ x y i m, pixelAddr c x y = some (i, m) → i < c.fbBytes ∧ ∃ k < 8, m = 0x80#8 >>> k) ∧
    (∀ i k, i < c.fbBytes → k < 8 → ∃ x y, pixelAddr c x y = some (i, 0x80#8 >>> k))

/-- R122 to R126: the five compositing modes on every byte and mask, and under NOR_VARIANT = DOC, Nor equals Or. -/
def Obligations.ComposeModes : Prop :=
  ∀ (n : NorVariant) (b m : Byte),
    compose n .normal b m true = b &&& ~~~m ∧ compose n .normal b m false = b ||| m ∧
    compose n .inverse b m false = b &&& ~~~m ∧ compose n .inverse b m true = b ||| m ∧
    compose n .toggle b m true = b ^^^ m ∧ compose n .toggle b m false = b ∧
    compose n .or b m true = b &&& ~~~m ∧ compose n .or b m false = b ∧
    compose .doc .nor b m true = (if b &&& m ≠ 0#8 then b &&& ~~~m else b) ∧
    compose .library .nor b m true = (if b &&& m = 0#8 then b ||| m else b) ∧
    compose n .nor b m false = b ∧
    ∀ v, compose .doc .nor b m v = compose .doc .or b m v

/-- R129: after a `Plot` on the grid the pixel is as the table says, and no other pixel has changed; a `Plot` off the grid
changes nothing (R121). -/
def Obligations.PlotFollowsTable : Prop :=
  ∀ (s : State) (x y : Int) (mode : Mode) (v : Bool), s.fbWf →
    pixelLit (plot s x y mode v) x y = (pixelLit s x y).map (litAfter s.cfg.norVariant mode v) ∧
    (∀ x' y', (x', y') ≠ (x, y) → pixelLit (plot s x y mode v) x' y' = pixelLit s x' y') ∧
    (pixelLit s x y = none → plot s x y mode v = s)

/-- WRITE_PIXEL (R127) completes for all operands with one `Plot` at (A0, A1): the pixel follows R129, every other pixel,
every byte of FB but the pixel's and all other state are unchanged. -/
def Obligations.WritePixelCompletes : Prop :=
  ∀ (s : State) (mode : Mode) (v : Bool), s.fbWf →
    ∃ t, exec (.writePixel mode v) s = .next { s with cur := [.plot s.a0.toInt s.a1.toInt mode v] } ∧
      performAll [.plot s.a0.toInt s.a1.toInt mode v] { s with cur := [] } = .next t ∧
      t = { s with cur := [], fb := t.fb } ∧
      pixelLit t s.a0.toInt s.a1.toInt =
        (pixelLit s s.a0.toInt s.a1.toInt).map (litAfter s.cfg.norVariant mode v) ∧
      (∀ x y, (x, y) ≠ (s.a0.toInt, s.a1.toInt) → pixelLit t x y = pixelLit s x y) ∧
      ∀ a, MicroOp.misses s.cfg a (.plot s.a0.toInt s.a1.toInt mode v) = true → fbRead t a = fbRead s a

/-- CLEAR (R128) completes with FB_BYTES byte writes, ascending: every byte of FB is 0xFF (V = 1) or 0x00 (V = 0), and all
other state is unchanged. -/
def Obligations.ClearCompletes : Prop :=
  ∀ (s : State) (v : Bool), s.fbWf →
    ∃ t, exec (.clear v) s = .next { s with
        cur := (List.range s.cfg.fbBytes).map fun i => .fbWrite i (if v then 0xFF#8 else 0x00#8) } ∧
      performAll ((List.range s.cfg.fbBytes).map fun i => .fbWrite i (if v then 0xFF#8 else 0x00#8))
        { s with cur := [] } = .next t ∧
      t = { s with cur := [], fb := t.fb } ∧
      (∀ a, a < s.cfg.fbBytes → fbRead t a = if v then 0xFF#8 else 0x00#8) ∧
      ∀ a, s.cfg.fbBytes ≤ a → fbRead t a = fbRead s a

/-! ## Fonts (41_font.md) -/

/-- SELECT_FONT (R141) completes for every A0: FONT_BASE is A0, FONT_VALID is 1, and nothing else changes. -/
def Obligations.SelectFontCompletes : Prop :=
  ∀ s : State,
    exec .selectFont s = .next { s with cur := [.setFont s.a0] } ∧
    performAll [.setFont s.a0] { s with cur := [] } = .next { s with cur := [], fontBase := s.a0, fontValid := true }

/-- R143 and R144: which code points are renderable, and where a glyph's width and bitmap are, in a fixed-width and in a
proportional font; the sum runs over the glyphs before the glyph and does not wrap. -/
def Obligations.GlyphTables : Prop :=
  ∀ (s : State) (l0 l1 first count : Byte), fontRead s 0 = some l0 → fontRead s 1 = some l1 →
    fontRead s 4 = some first → fontRead s 5 = some count →
    (∀ c : Byte, glyphIndex s c = some
      (if first.toNat ≤ c.toNat ∧ c.toNat < first.toNat + count.toNat then some (c.toNat - first.toNat) else none)) ∧
    (l0 = 0#8 ∧ l1 = 0#8 → ∀ w gi bpc, fontRead s 2 = some w →
      glyphWidth s gi = some w.toNat ∧ glyphOffset s gi bpc = some (6 + gi * bpc * w.toNat)) ∧
    (¬ (l0 = 0#8 ∧ l1 = 0#8) → ∀ (ws : List Byte) (gi bpc : Nat) (w : Byte),
      (∀ k, k < ws.length → fontRead s (6 + k) = ws[k]?) → ws.length = gi → fontRead s (6 + gi) = some w →
      glyphWidth s gi = some w.toNat ∧
      glyphOffset s gi bpc = some (6 + count.toNat + bpc * (ws.map BitVec.toNat).sum))

/-- CHAR_WIDTH (R145) completes with the width in RESULT and changes nothing else: a space counts as 'n', an unrenderable
code point has width 0, and a renderable one has fixed_width or its byte of the width table. -/
def Obligations.CharWidthCompletes : Prop :=
  ∀ (s : State) (ch l0 l1 first count w : Byte), s.fontValid = true →
    fontRead s 0 = some l0 → fontRead s 1 = some l1 → fontRead s 4 = some first → fontRead s 5 = some count →
    let c := (if ch = 0x20#8 then 0x6E#8 else ch).toNat
    let inFont := first.toNat ≤ c ∧ c < first.toNat + count.toNat
    (inFont → fontRead s (if l0 = 0#8 ∧ l1 = 0#8 then 2 else 6 + (c - first.toNat)) = some w) →
    exec (.charWidth ch) s = .next { s with cur := [.setResult (if inFont then w.setWidth 32 else 0#32)] } ∧
    performAll [.setResult (if inFont then w.setWidth 32 else 0#32)] { s with cur := [] } =
      .next { s with cur := [], result := if inFont then w.setWidth 32 else 0#32 }

/-- DRAW_CHAR that draws nothing (R150) completes: with x ≥ WT or y ≥ HT it returns -1 with no font read, and on the grid an
unrenderable code point other than the space returns 0; nothing but RESULT changes. -/
def Obligations.DrawCharDrawsNothing : Prop :=
  ∀ (s : State) (mode : Mode) (ch : Byte), s.fontValid = true →
    (s.a0.toInt ≥ s.cfg.gridWidth ∨ s.a1.toInt ≥ s.cfg.gridHeight →
      exec (.drawChar mode ch) s = .next { s with cur := [.setResult 0xFFFFFFFF#32] } ∧
      performAll [.setResult 0xFFFFFFFF#32] { s with cur := [] } =
        .next { s with cur := [], result := 0xFFFFFFFF#32 }) ∧
    (s.a0.toInt < s.cfg.gridWidth → s.a1.toInt < s.cfg.gridHeight → ch ≠ 0x20#8 → ∀ first count : Byte,
      fontRead s 4 = some first → fontRead s 5 = some count →
      ¬ (first.toNat ≤ ch.toNat ∧ ch.toNat < first.toNat + count.toNat) →
      exec (.drawChar mode ch) s = .next { s with cur := [.setResult 0#32] } ∧
      performAll [.setResult 0#32] { s with cur := [] } = .next { s with cur := [], result := 0#32 })

/-- DRAW_CHAR of a space (R150) completes: every pixel of the box, CharWidth(' ') wide and h high, is plotted once with
v = 0; nothing else of the grid changes, RESULT is the width, and all other state is unchanged. -/
def Obligations.DrawCharSpace : Prop :=
  ∀ (s : State) (mode : Mode) (w h : Nat), s.fbWf → s.fontValid = true →
    s.a0.toInt < s.cfg.gridWidth → s.a1.toInt < s.cfg.gridHeight →
    charWidth s 0x20#8 = some w → fontHeight s = some h →
    ∃ ops t, exec (.drawChar mode 0x20#8) s =
        .next { s with cur := ops ++ [.setResult (BitVec.ofNat 32 w)] } ∧
      performAll (ops ++ [.setResult (BitVec.ofNat 32 w)]) { s with cur := [] } = .next t ∧
      t = { s with cur := [], result := BitVec.ofNat 32 w, fb := t.fb } ∧
      (∀ x y : Int, s.a0.toInt ≤ x ∧ x < s.a0.toInt + w ∧ s.a1.toInt ≤ y ∧ y < s.a1.toInt + h →
        pixelLit t x y = (pixelLit s x y).map (litAfter s.cfg.norVariant mode false)) ∧
      (∀ x y : Int, ¬ (s.a0.toInt ≤ x ∧ x < s.a0.toInt + w ∧ s.a1.toInt ≤ y ∧ y < s.a1.toInt + h) →
        pixelLit t x y = pixelLit s x y) ∧
      ∀ a, ops.all (MicroOp.misses s.cfg a) = true → fbRead t a = fbRead s a

/-- DRAW_CHAR of a renderable glyph (R147 to R150) completes: row r of column j takes bit r - org(r div 8) of column byte
r div 8, each pixel of the cell plotted once with its bit; nothing else of the grid changes, RESULT is the width, and all
other state is unchanged. -/
def Obligations.DrawCharGlyph : Prop :=
  ∀ (s : State) (mode : Mode) (ch : Byte) (gi w h off : Nat), s.fbWf → s.fontValid = true →
    s.a0.toInt < s.cfg.gridWidth → s.a1.toInt < s.cfg.gridHeight → ch ≠ 0x20#8 →
    glyphIndex s ch = some (some gi) → glyphWidth s gi = some w → fontHeight s = some h →
    glyphOffset s gi (bytesPerColumn h) = some off →
    (∀ j < w, ∀ i < bytesPerColumn h,
      (fontRead s (glyphByteOffset s.cfg.glyphLayout off w (bytesPerColumn h) j i)).isSome = true) →
    ∃ ops t, exec (.drawChar mode ch) s = .next { s with cur := ops ++ [.setResult (BitVec.ofNat 32 w)] } ∧
      performAll (ops ++ [.setResult (BitVec.ofNat 32 w)]) { s with cur := [] } = .next t ∧
      t = { s with cur := [], result := BitVec.ofNat 32 w, fb := t.fb } ∧
      (∀ j < w, ∀ r < h, ∃ d,
        fontRead s (glyphByteOffset s.cfg.glyphLayout off w (bytesPerColumn h) j (r / 8)) = some d ∧
        pixelLit t (s.a0.toInt + (j : Int)) (s.a1.toInt + (r : Int)) =
          (pixelLit s (s.a0.toInt + (j : Int)) (s.a1.toInt + (r : Int))).map
            (litAfter s.cfg.norVariant mode
              (glyphBit s.cfg.glyphBitOrder d ((r : Int) - columnByteOrigin h (bytesPerColumn h) (r / 8)).toNat))) ∧
      (∀ x y : Int, ¬ (s.a0.toInt ≤ x ∧ x < s.a0.toInt + w ∧ s.a1.toInt ≤ y ∧ y < s.a1.toInt + h) →
        pixelLit t x y = pixelLit s x y) ∧
      ∀ a, ops.all (MicroOp.misses s.cfg a) = true → fbRead t a = fbRead s a

/-- R284, R70: each of the five font commands, with a font selected, records FONT_RANGE, code 4, and does nothing else exactly
when one of the reads it makes lies past the end of FONT_ROM, even if others can be read; otherwise it is issued. For
CHAR_WIDTH the reads are written out: the header, and the width byte of a renderable code point. That both `first` and `count`
are read, also for a code point below `first`, is log entry 11 (DEDUCED). -/
def Obligations.FontRangeFaults : Prop :=
  (∀ (s : State) (i : Instr), usesFont i = true → s.fontValid = true → s.faultCode = faultNone → s.cur = [] →
    (fontReadsFail i s → exec i s = .next { s with faultCode := 4#8, faultCmd := encode i }) ∧
    (¬ fontReadsFail i s → ∃ ops, exec i s = .next { s with cur := ops })) ∧
  (∀ (s : State) (ch : Byte),
    let c := (if ch = 0x20#8 then 0x6E#8 else ch).toNat
    charWidth s ch = none ↔
      s.cfg.fontRomSize ≤ s.fontBase.toNat + 5 ∨
      ∃ l0 l1 first count, fontRead s 0 = some l0 ∧ fontRead s 1 = some l1 ∧ fontRead s 4 = some first ∧
        fontRead s 5 = some count ∧ first.toNat ≤ c ∧ c < first.toNat + count.toNat ∧ ¬ (l0 = 0#8 ∧ l1 = 0#8) ∧
        s.cfg.fontRomSize ≤ s.fontBase.toNat + (6 + (c - first.toNat)))

/-- R284: each of the five font commands, with no font selected, records FONT_NOT_SELECTED, code 3, with its word, and
changes nothing else. -/
def Obligations.FontNotSelectedFaults : Prop :=
  ∀ (s : State) (i : Instr), usesFont i = true → s.fontValid = false → s.faultCode = faultNone → s.cur = [] →
    exec i s = .next { s with faultCode := 3#8, faultCmd := encode i }

/-- A font resource that lies inside FONT_ROM (R70, R142, R144) never faults: every font command is issued, whatever its
operands. -/
def Obligations.FittingFontNeverFaults : Prop :=
  ∀ (s : State) (i : Instr), usesFont i = true → s.fontValid = true → fontFits s = true →
    ∃ ops, exec i s = .next { s with cur := ops }

/-! ## Text (42_raster.md) -/

/-- TEXT_WRITE (R170, R283) completes for A0 in 0..255: TEXT[A0] is CH, every other byte of TEXT and all other state is
unchanged. With A0 < 0 or A0 ≥ 256 it records ILLEGAL_ARGUMENT, code 2, and changes nothing else. -/
def Obligations.TextWriteCompletes : Prop :=
  (∀ (s : State) (ch : Byte) (n : Nat), Memory.wf textUnlisted textSize s.text = true → s.a0.toInt = n → n < 256 →
    ∃ t, exec (.textWrite ch) s = .next { s with cur := [.setText (BitVec.ofNat 8 n) ch] } ∧
      performAll [.setText (BitVec.ofNat 8 n) ch] { s with cur := [] } = .next t ∧
      t = { s with cur := [], text := t.text } ∧ textRead t n = ch ∧ ∀ a, a ≠ n → textRead t a = textRead s a) ∧
  (∀ (s : State) (ch : Byte), s.faultCode = faultNone → s.cur = [] → s.a0.toInt < 0 ∨ 256 ≤ s.a0.toInt →
    exec (.textWrite ch) s = .next { s with faultCode := 2#8, faultCmd := encode (.textWrite ch) })

/-- DRAW_STRING (R171, R172) with a font resource inside FONT_ROM completes for all operands: its plots are those of
`drawString` on TEXT[0..LEN-1], all of them in the columns from x-1 to the last separator the text can have and on the rows
y..y+h; only FB changes, and there only bytes that a plot names. -/
def Obligations.DrawStringCompletes : Prop :=
  ∀ (s : State) (mode : Mode) (len : Byte) (h : Nat), s.fontValid = true → fontFits s = true → fontHeight s = some h →
    ∃ ops t, drawString s s.a0.toInt s.a1.toInt (textPrefix s len.toNat) mode = some ops ∧
      exec (.drawString mode len) s = .next { s with cur := ops } ∧
      performAll ops { s with cur := [] } = .next t ∧
      t = { s with cur := [], fb := t.fb } ∧
      (∀ op ∈ ops, ∃ x y m v, op = .plot x y m v ∧ s.a0.toInt - 1 ≤ x ∧
        x < s.a0.toInt + stringAdvance s (textPrefix s len.toNat) ∧
        s.a1.toInt ≤ y ∧ y ≤ s.a1.toInt + h) ∧
      ∀ a, ops.all (MicroOp.misses s.cfg a) = true → fbRead t a = fbRead s a

/-- R171: a string that starts past an edge (x ≥ WT, y ≥ HT or y + h < 0) plots nothing. Any other string whose drawn glyphs
have a width is the leading separator and then each glyph at its column followed by its separator, columns advancing by the
width and one; it ends with the text, or with the glyph after which the column leaves the grid on the right. -/
def Obligations.StringLayout : Prop :=
  ∀ (s : State) (x y : Int) (chars : List Byte) (mode : Mode) (h : Nat), fontFits s = true → fontHeight s = some h →
    (x ≥ s.cfg.gridWidth ∨ y ≥ s.cfg.gridHeight ∨ y + (h : Int) < 0 → drawString s x y chars mode = some []) ∧
    (x < s.cfg.gridWidth → y < s.cfg.gridHeight → 0 ≤ y + (h : Int) → ∀ n ≤ chars.length,
      (∀ c ∈ chars.take n, charWidth s c ≠ some 0) →
      (∀ k < n, x + stringColumn s chars k < s.cfg.gridWidth) →
      (n = chars.length ∨ x + stringColumn s chars n ≥ s.cfg.gridWidth) →
      drawString s x y chars mode = some
        (drawLine (x - 1) y (x - 1) (y + h) .inverse ++
          (List.range n).flatMap fun k => match chars[k]? with
            | some c =>
              ((drawChar s (x + stringColumn s chars k) y c mode).map Prod.snd).getD [] ++
                drawLine (x + stringColumn s chars (k + 1) - 1) y (x + stringColumn s chars (k + 1) - 1) (y + h) .inverse
            | none => []))

/-- R171, R339: code points of width 0 contribute nothing to a string, no plot, no advance and no separator. -/
def Obligations.StringSkipsZeroWidth : Prop :=
  ∀ (s : State) (x y : Int) (chars : List Byte) (mode : Mode), fontFits s = true →
    drawString s x y chars mode = drawString s x y (chars.filter fun c => charWidth s c != some 0) mode

/-! ## Shapes (42_raster.md) -/

/-- DRAW_LINE (R181), DRAW_BOX (R183), DRAW_FILLED_BOX (R184) and DRAW_CIRCLE (R192) complete for all operands: the line of
R180 from (A0, A1) to (A2, A3); the top, right, bottom and left lines of the box; a vertical line for each column in A0..A2;
the circle of R190 around (A0, A1) with radius A2. -/
def Obligations.ShapesComplete : Prop :=
  ∀ (s : State) (mode : Mode), s.fbWf →
    let x1 := s.a0.toInt
    let y1 := s.a1.toInt
    let x2 := s.a2.toInt
    let y2 := s.a3.toInt
    drawsPoints (.drawLine mode) mode (linePoints x1 y1 x2 y2) s ∧
    drawsPoints (.drawBox mode) mode
      (linePoints x1 y1 x2 y1 ++ linePoints x2 y1 x2 y2 ++ linePoints x2 y2 x1 y2 ++ linePoints x1 y2 x1 y1) s ∧
    drawsPoints (.drawFilledBox mode) mode
      (((List.range (x2 - x1 + 1).toNat).map fun k => x1 + (k : Int)).flatMap fun b => linePoints b y1 b y2) s ∧
    drawsPoints (.drawCircle mode) mode (circlePoints x1 y1 x2) s

/-- The properties of R180: a line plots max(|x2-x1|, |y2-y1|) + 1 points, from the first end to the second, each
8-adjacent to the one before and each once. -/
def Obligations.LineShape : Prop :=
  ∀ x1 y1 x2 y2 : Int,
    (linePoints x1 y1 x2 y2).length = max (x2 - x1).natAbs (y2 - y1).natAbs + 1 ∧
    (linePoints x1 y1 x2 y2).head? = some (x1, y1) ∧
    (linePoints x1 y1 x2 y2).getLast? = some (x2, y2) ∧
    (linePoints x1 y1 x2 y2).Nodup ∧
    (linePoints x1 y1 x2 y2).IsChain (fun p q => (q.1 - p.1).natAbs ≤ 1 ∧ (q.2 - p.2).natAbs ≤ 1)

/-- The outline of R183: the points plotted are exactly those of the box's border, whatever the order of the corners; when
the box is no line, each corner is plotted twice and every other point of the border once; a box of one point plots it four
times. -/
def Obligations.BoxOutline : Prop :=
  ∀ x1 y1 x2 y2 : Int,
    (∀ x y, (x, y) ∈ boxPoints x1 y1 x2 y2 ↔
      min x1 x2 ≤ x ∧ x ≤ max x1 x2 ∧ min y1 y2 ≤ y ∧ y ≤ max y1 y2 ∧ (x = x1 ∨ x = x2 ∨ y = y1 ∨ y = y2)) ∧
    (x1 ≠ x2 → y1 ≠ y2 → ∀ p ∈ boxPoints x1 y1 x2 y2,
      (boxPoints x1 y1 x2 y2).count p = if (p.1 = x1 ∨ p.1 = x2) ∧ (p.2 = y1 ∨ p.2 = y2) then 2 else 1) ∧
    boxPoints x1 y1 x1 y1 = List.replicate 4 (x1, y1)

/-- R184: a filled box plots each point of its columns x1..x2 and its rows once, whatever the order of the rows, and
nothing when x1 > x2. -/
def Obligations.FilledBoxArea : Prop :=
  ∀ x1 y1 x2 y2 : Int,
    (∀ x y, (x, y) ∈ filledBoxPoints x1 y1 x2 y2 ↔ x1 ≤ x ∧ x ≤ x2 ∧ min y1 y2 ≤ y ∧ y ≤ max y1 y2) ∧
    (filledBoxPoints x1 y1 x2 y2).Nodup

/-- R190 to R192: which points a circle plots. For r ≥ 2 they are the offsets whose smaller and larger distances a ≤ b from the
two axes meet a² + b² - b + 1 < r² ≤ a² + b² + b + 1, which is what the decision variable of R190 keeps at every octant step,
each plotted once; for r = 1 and for a negative radius they are the four axis points, and for r = 0 the centre four times.
Every circle is symmetric in x = cx and in y = cy, plot for plot. -/
def Obligations.CircleShape : Prop :=
  ∀ cx cy r : Int,
    (2 ≤ r → (circlePoints cx cy r).Nodup ∧ ∀ x y : Int,
      let a : Int := min (x - cx).natAbs (y - cy).natAbs
      let b : Int := max (x - cx).natAbs (y - cy).natAbs
      (x, y) ∈ circlePoints cx cy r ↔
        a * a + b * b - b + 1 < r * r ∧ r * r ≤ a * a + b * b + b + 1) ∧
    (r ≤ 1 → circlePoints cx cy r = [(cx, cy + r), (cx, cy - r), (cx + r, cy), (cx - r, cy)]) ∧
    (∀ x y, (circlePoints cx cy r).count (2 * cx - x, y) = (circlePoints cx cy r).count (x, y) ∧
      (circlePoints cx cy r).count (x, 2 * cy - y) = (circlePoints cx cy r).count (x, y)) ∧
    (∀ p ∈ circlePoints cx cy r, (p.1 - cx).natAbs ≤ r.natAbs ∧ (p.2 - cy).natAbs ≤ r.natAbs) ∧
    (cx, cy + r) ∈ circlePoints cx cy r ∧ (cx, cy - r) ∈ circlePoints cx cy r ∧
    (cx + r, cy) ∈ circlePoints cx cy r ∧ (cx - r, cy) ∈ circlePoints cx cy r

/-- DRAW_TEST_PATTERN (R200, R201) completes in every configuration with 512*T plots and changes FB only. When WP is a power
of two the whole grid shows the checkerboard or the stripes of R93, whatever FB held. -/
def Obligations.TestPatternCompletes : Prop :=
  ∀ (s : State) (k : TestKind), s.fbWf →
    ∃ ops t, exec (.drawTestPattern k) s = .next { s with cur := ops } ∧ ops.length = 512 * s.cfg.panels ∧
      performAll ops { s with cur := [] } = .next t ∧
      t = { s with cur := [], fb := t.fb } ∧
      (∀ a, ops.all (MicroOp.misses s.cfg a) = true → fbRead t a = fbRead s a) ∧
      ∀ n, s.cfg.wp = 2 ^ n → ∀ x y : Nat, x < s.cfg.gridWidth → y < s.cfg.gridHeight →
        pixelLit t (x : Int) (y : Int) = some (match k with
          | .checker0 => (x + y) % 2 == 1
          | .checker1 => (x + y) % 2 == 0
          | .stripe0 => x % 2 == 1
          | .stripe1 => x % 2 == 0)

/-! ## Marquee (42_raster.md) -/

/-- DRAW_MARQUEE (R205) with a font resource inside FONT_ROM completes: the text, its width and height and the offset are
stored, the string is drawn in NORMAL mode, and nothing else changes. -/
def Obligations.DrawMarqueeCompletes : Prop :=
  ∀ (s : State) (len : Byte), Memory.wf textUnlisted marqueeMax s.mqText = true → s.fontValid = true →
    fontFits s = true →
    ∃ first draw t, exec (.drawMarquee len) s = .next { s with cur := first :: draw } ∧
      drawString s s.a0.toInt s.a1.toInt (textPrefix s len.toNat) .normal = some draw ∧
      performAll (first :: draw) { s with cur := [] } = .next t ∧
      t = { s with
        cur := [], fb := t.fb, mqText := t.mqText, mqLen := len,
        mqWidth := ((textPrefix s len.toNat).map fun c => (charWidth s c).getD 0 + 1).sum,
        mqHeight := t.mqHeight, mqOX := s.a0.toInt, mqOY := s.a1.toInt } ∧
      fontHeight s = some t.mqHeight.toNat ∧
      (∀ a, mqTextRead t a = if a < len.toNat then textRead s a else mqTextRead s a) ∧
      ∀ a, draw.all (MicroOp.misses s.cfg a) = true → fbRead t a = fbRead s a

/-- STEP_MARQUEE (R206, R207) with a font resource inside FONT_ROM completes: each offset moves and wraps as R206 says, with
a clear of FB for each axis that wrapped; the text is drawn again at the new offset, or shifted by R208 for a step of one
column with MARQUEE_FAST_SHIFT; RESULT says whether an axis wrapped; nothing else changes. -/
def Obligations.StepMarqueeCompletes : Prop :=
  ∀ s : State, s.fontValid = true → fontFits s = true →
    let nx := s.mqOX + s.a0.toInt
    let ny := s.mqOY + s.a1.toInt
    let W : Int := s.mqWidth
    let H : Int := s.mqHeight.toNat
    let ox := wrapped nx W s.cfg.gridWidth
    let oy := wrapped ny H s.cfg.gridHeight
    let wrapsX := nx < -W ∨ nx > s.cfg.gridWidth
    let wrapsY := ny < -H ∨ ny > s.cfg.gridHeight
    ∃ redraw t,
      (¬ (s.cfg.marqueeFastShift = true ∧ s.a1.toInt = 0 ∧ (s.a0.toInt = -1 ∨ s.a0.toInt = 1)) →
        drawString s ox oy (mqTextPrefix s s.mqLen.toNat) .normal = some redraw) ∧
      (s.cfg.marqueeFastShift = true → s.a1.toInt = 0 → s.a0.toInt = -1 →
        shiftLeftOps s ox oy (mqTextPrefix s s.mqLen.toNat) = some redraw) ∧
      (s.cfg.marqueeFastShift = true → s.a1.toInt = 0 → s.a0.toInt = 1 →
        shiftRightOps s ox oy (mqTextPrefix s s.mqLen.toNat) = some redraw) ∧
      exec .stepMarquee s = .next { s with
        cur := .moveMarquee ox oy ::
          ((if wrapsX then clearOps s.cfg true else []) ++ (if wrapsY then clearOps s.cfg true else []) ++ redraw ++
            [.setResult (if wrapsX ∨ wrapsY then 1#32 else 0#32)]) } ∧
      performAll (.moveMarquee ox oy ::
          ((if wrapsX then clearOps s.cfg true else []) ++ (if wrapsY then clearOps s.cfg true else []) ++ redraw ++
            [.setResult (if wrapsX ∨ wrapsY then 1#32 else 0#32)])) { s with cur := [] } = .next t ∧
      t = { s with
        cur := [], fb := t.fb, mqOX := ox, mqOY := oy, result := if wrapsX ∨ wrapsY then 1#32 else 0#32 } ∧
      ∀ a, ¬ wrapsX → ¬ wrapsY → redraw.all (MicroOp.misses s.cfg a) = true → fbRead t a = fbRead s a

/-- R207: stepped by -1 from the right edge, a marquee comes back to the right edge with one wrap after WT + MQ_WIDTH + 1
steps, the offset falling by one a step in between; stepped by +1 from -MQ_WIDTH it does the same the other way. -/
def Obligations.MarqueePeriod : Prop :=
  ∀ width limit n : Nat, n ≤ limit + width →
    (fun o => (wrapAxis (o + -1) width limit).1)^[n] (limit : Int) = limit - n ∧
    (fun o => (wrapAxis (o + -1) width limit).1)^[limit + width + 1] (limit : Int) = limit ∧
    (wrapAxis ((limit : Int) - n + -1) width limit).2 = decide (n = limit + width) ∧
    (fun o => (wrapAxis (o + 1) width limit).1)^[n] (-(width : Int)) = n - width ∧
    (fun o => (wrapAxis (o + 1) width limit).1)^[limit + width + 1] (-(width : Int)) = -width ∧
    (wrapAxis ((n : Int) - width + 1) width limit).2 = decide (n = limit + width)

/-- R208: the byte updates of ShiftLeft move every pixel one column to the left and darken the last column; those of
ShiftRight move every pixel one column to the right and darken the first. After the byte updates each draws, in NORMAL mode,
the one glyph that enters: the first whose right end reaches the right edge (left shift) or the left edge (right shift), every
code point before it taking its width and one; with no such glyph it draws nothing. -/
def Obligations.FastShiftMovesPixels : Prop :=
  (∀ s : State, s.fbWf →
    (∃ t, performAll ((List.range s.cfg.fbBytes).map .shiftLeftByte) s = .next t ∧ t = { s with fb := t.fb } ∧
      ∀ x y : Int, 0 ≤ x → 0 ≤ y → x < s.cfg.gridWidth → y < s.cfg.gridHeight →
        pixelLit t x y = if x + 1 = s.cfg.gridWidth then some false else pixelLit s (x + 1) y) ∧
    (∃ t, performAll ((List.range s.cfg.fbBytes).reverse.map .shiftRightByte) s = .next t ∧ t = { s with fb := t.fb } ∧
      ∀ x y : Int, 0 ≤ x → 0 ≤ y → x < s.cfg.gridWidth → y < s.cfg.gridHeight →
        pixelLit t x y = if x = 0 then some false else pixelLit s (x - 1) y)) ∧
  (∀ (s : State) (ox oy : Int) (chars : List Byte), fontFits s = true →
    (∀ k c, entersAt s (fun e => decide (e ≥ s.cfg.gridWidth)) ox chars k → chars[k]? = some c →
      shiftLeftOps s ox oy chars = some ((List.range s.cfg.fbBytes).map .shiftLeftByte ++
        ((drawChar s (ox + stringColumn s chars k) oy c .normal).map Prod.snd).getD [])) ∧
    ((∀ k, ¬ entersAt s (fun e => decide (e ≥ s.cfg.gridWidth)) ox chars k) →
      shiftLeftOps s ox oy chars = some ((List.range s.cfg.fbBytes).map .shiftLeftByte)) ∧
    (∀ k c, entersAt s (fun e => decide (e ≥ 0)) ox chars k → chars[k]? = some c →
      shiftRightOps s ox oy chars = some ((List.range s.cfg.fbBytes).reverse.map .shiftRightByte ++
        ((drawChar s (ox + stringColumn s chars k) oy c .normal).map Prod.snd).getD [])) ∧
    ((∀ k, ¬ entersAt s (fun e => decide (e ≥ 0)) ox chars k) →
      shiftRightOps s ox oy chars = some ((List.range s.cfg.fbBytes).reverse.map .shiftRightByte)))

/-! ## Timebase, enables and flags (44_timebase_sync.md) -/

/-- TICK_READ (R253) completes with TICK in RESULT, and TICK_READ_BYTE (R254) for IDX below TICK_WIDTH/8 with the byte lane,
lane 0 the least significant; nothing else changes. For any other IDX, which no word decodes to, the model
has ILLEGAL_COMMAND, code 1 (log entry 12, DEDUCED from R95 and R99). The lanes of one value of TICK, weighted by 2^(8k), add
up to it. TICK_ATOMIC (R103), run by the host with nothing else arriving, leaves TICK in Rt and IE as it was;
the host's variables are the model's (log entry 18). -/
def Obligations.TickReadsComplete : Prop :=
  ∀ s : State,
    (exec .tickRead s = .next { s with cur := [.readTick] } ∧
      performAll [.readTick] { s with cur := [] } = .next { s with cur := [], result := s.tick }) ∧
    (∀ idx : Byte, idx.toNat < s.cfg.tickWidth.bits / 8 →
      exec (.tickReadByte idx) s = .next { s with cur := [.readTickByte idx] } ∧
      performAll [.readTickByte idx] { s with cur := [] } =
        .next { s with cur := [], result := BitVec.ofNat 32 (s.tick.toNat / 2 ^ (8 * idx.toNat) % 256) }) ∧
    (∀ idx : Byte, s.cfg.tickWidth.bits / 8 ≤ idx.toNat → s.faultCode = faultNone → s.cur = [] →
      exec (.tickReadByte idx) s = .next { s with faultCode := 1#8, faultCmd := encode (.tickReadByte idx) }) ∧
    (s.tick.toNat < 2 ^ s.cfg.tickWidth.bits →
      ((List.range (s.cfg.tickWidth.bits / 8)).map fun k =>
        (tickLane s.tick (BitVec.ofNat 8 k)).toNat * 2 ^ (8 * k)).sum = s.tick.toNat) ∧
    (∀ rt rs b : Nat, s.cfg.valid = true → idle s = true → s.faultCode = faultNone →
      s.tick.toNat < 2 ^ s.cfg.tickWidth.bits → (rs < b ∨ b + s.cfg.tickWidth.lanes ≤ rs) →
      ∃ t, Host.Core.run Sys2Proof.core (3 * s.cfg.tickWidth.lanes + 7)
          { s with env := tickAtomic s.cfg.tickWidth rt rs b } = .next t ∧
        t = { s with env := [], a0 := t.a0, result := t.result, hostVars := t.hostVars } ∧ hostVar t rt = s.tick)

/-- R251, R252: n runs of the timer handler add n*TICK_INC to TICK modulo 2^TICK_WIDTH, whether or not a scan was skipped,
and the difference of the two readings is n*TICK_INC when that is less than 2^TICK_WIDTH. -/
def Obligations.TickElapsed : Prop :=
  ∀ (s : State) (n : Nat), s.tick.toNat < 2 ^ s.cfg.tickWidth.bits →
    (timerRuns n s).tick.toNat = (s.tick.toNat + n * s.cfg.tickInc) % 2 ^ s.cfg.tickWidth.bits ∧
    (n * s.cfg.tickInc < 2 ^ s.cfg.tickWidth.bits →
      tickElapsed s.cfg.tickWidth (timerRuns n s).tick s.tick = n * s.cfg.tickInc)

/-- IE_SAVE_DISABLE (R256) and IE_RESTORE (R257) complete for each source. The first puts the prior IE[SRC] in RESULT and
clears IE[SRC]; the second sets IE[SRC] to A0[0] for every A0. The other enables, PEND and all other state are
unchanged. -/
def Obligations.EnablesComplete : Prop :=
  ∀ (s : State) (src : Source),
    (∃ t, exec (.ieSaveDisable src) s = .next { s with cur := [.saveDisableIe src] } ∧
      performAll [.saveDisableIe src] { s with cur := [] } = .next t ∧
      t = { s with cur := [], result := if ieBit s src then 1#32 else 0#32, ie := t.ie } ∧
      ieBit t src = false ∧ ∀ n, n ≠ src → ieBit t n = ieBit s n) ∧
    (∃ t, exec (.ieRestore src) s = .next { s with cur := [.restoreIe src (s.a0.getLsbD 0)] } ∧
      performAll [.restoreIe src (s.a0.getLsbD 0)] { s with cur := [] } = .next t ∧
      t = { s with cur := [], ie := t.ie } ∧
      ieBit t src = s.a0.getLsbD 0 ∧ ∀ n, n ≠ src → ieBit t n = ieBit s n)

/-- R258: nested critical sections of one source, each ended with the enable its IE_SAVE_DISABLE returned, leave the source
masked until the outer one ends, which restores IE exactly. The host's nested CRIT_BEGIN and CRIT_END (R103), which save the
enables in two variables of the model (log entry 18) and restore from them, leave IE as it was. -/
def Obligations.CriticalSectionsNest : Prop :=
  (∀ (s s1 s2 s3 s4 : State) (src : Source),
    perform (.saveDisableIe src) s = .next s1 → perform (.saveDisableIe src) s1 = .next s2 →
    perform (.restoreIe src (s2.result.getLsbD 0)) s2 = .next s3 →
    perform (.restoreIe src (s1.result.getLsbD 0)) s3 = .next s4 →
    ieBit s1 src = false ∧ ieBit s2 src = false ∧ ieBit s3 src = false ∧ s4.ie = s.ie) ∧
  (∀ (s : State) (src : Source) (outer inner : Nat), s.cfg.valid = true → idle s = true → s.faultCode = faultNone →
    outer ≠ inner →
    ∃ t, Host.Core.run Sys2Proof.core 12
        { s with env := critBegin src outer ++ critBegin src inner ++ critEnd src inner ++ critEnd src outer } = .next t ∧
      t = { s with env := [], a0 := t.a0, result := t.result, hostVars := t.hostVars } ∧
      hostVar t outer = (if ieBit s src then 1#32 else 0#32) ∧ hostVar t inner = 0#32)

/-- FLAG_READ (R259) and FLAG_CLEAR (R260) complete for IDX 0 and 1: the first puts the flag in RESULT, the second sets it to
0x00, and nothing else changes. Any other IDX, which no word decodes to, is ILLEGAL_COMMAND, code 1, in the model
(log entry 12, DEDUCED from R95 and R99). FLAG_TAC (R103, R265), run by the host with nothing else arriving, leaves the flag
in Rf, the flag clear, the other flag and IE as they were; the host's variables are the model's (log entry 18). -/
def Obligations.FlagsComplete : Prop :=
  ∀ s : State,
    (exec (.flagRead 0#8) s = .next { s with cur := [.readFlag 0] } ∧
      performAll [.readFlag 0] { s with cur := [] } = .next { s with cur := [], result := s.flag0.setWidth 32 }) ∧
    (exec (.flagRead 1#8) s = .next { s with cur := [.readFlag 1] } ∧
      performAll [.readFlag 1] { s with cur := [] } = .next { s with cur := [], result := s.flag1.setWidth 32 }) ∧
    (exec (.flagClear 0#8) s = .next { s with cur := [.clearFlag 0] } ∧
      performAll [.clearFlag 0] { s with cur := [] } = .next { s with cur := [], flag0 := 0x00#8 }) ∧
    (exec (.flagClear 1#8) s = .next { s with cur := [.clearFlag 1] } ∧
      performAll [.clearFlag 1] { s with cur := [] } = .next { s with cur := [], flag1 := 0x00#8 }) ∧
    (∀ idx : Byte, 2 ≤ idx.toNat → s.faultCode = faultNone → s.cur = [] →
      exec (.flagRead idx) s = .next { s with faultCode := 1#8, faultCmd := encode (.flagRead idx) } ∧
      exec (.flagClear idx) s = .next { s with faultCode := 1#8, faultCmd := encode (.flagClear idx) }) ∧
    ∀ (k : Fin 2) (rf rs : Nat), s.cfg.valid = true → idle s = true → s.faultCode = faultNone → rf ≠ rs →
      ∃ t, Host.Core.run Sys2Proof.core 11 { s with env := flagTestAndClear k rf rs } = .next t ∧
        t = writeFlag k 0x00#8 { s with env := [], a0 := t.a0, result := t.result, hostVars := t.hostVars } ∧
        hostVar t rf = (readFlag s k).setWidth 32

/-! ## Scan-out (43_scanout.md) -/

/-- R221, R223, R225: the timer handler. With BUS_BUSY = 0 it sends 16*T bytes, event number n carrying
FB[ROWB*s + n div 4 + QB*(3 - n mod 4)], then blanks, latches, selects the rows of the phase just sent, unblanks, advances
PHASE and adds TICK_INC. With BUS_BUSY = 1 it only adds TICK_INC. It changes nothing else but PEND[TIMER]. -/
def Obligations.TimerHandlerScans : Prop :=
  ∀ s : State, s.ctx = .main →
    (s.busBusy = false → ∃ bs : List Byte, bs.length = 16 * s.cfg.panels ∧
      (∀ n < 16 * s.cfg.panels, bs[n]? = some
        (fbRead s (s.cfg.rowBytes * s.phase.toNat + n / 4 + s.cfg.bandBytes * (3 - n % 4)))) ∧
      enter .timer s = { s with
        pend := s.pend &&& 0b110#3,
        out := s.out ++ bs.map .ser ++ [.blank, .latch, .rowSel s.phase, .unblank],
        rowEn := true, rowAddr := s.phase, phase := s.phase + 1#2,
        tick := BitVec.ofNat 32 ((s.tick.toNat + s.cfg.tickInc) % 2 ^ s.cfg.tickWidth.bits) }) ∧
    (s.busBusy = true → enter .timer s = { s with
      pend := s.pend &&& 0b110#3,
      tick := BitVec.ofNat 32 ((s.tick.toNat + s.cfg.tickInc) % 2 ^ s.cfg.tickWidth.bits) })

/-- R229: after a scan of phase s the display lights exactly the pixels of the rows y' with y' mod 4 = s that FB holds lit
at the time of the scan. -/
def Obligations.DisplayShowsTheRows : Prop :=
  ∀ (s : State) (x y : Nat) (lit : Bool), s.busBusy = false → pixelLit s (x : Int) (y : Int) = some lit →
    displayLit (enter .timer s) (x % 32 + 32 * (x / 32 + s.cfg.wp * (y / 16))) (y % 16) =
      (decide (y % 4 = s.phase.toNat) && lit)

/-- R224, R230: scans that are not skipped take the phases in turn, so four of them come back to the first phase, and each
row has been lit by one of the four. -/
def Obligations.FourScansRefreshAllRows : Prop :=
  ∀ s : State, s.busBusy = false →
    (timerRuns 4 s).phase = s.phase ∧
    (∀ k < 4, (timerRuns (k + 1) s).rowAddr = s.phase + BitVec.ofNat 2 k ∧ (timerRuns (k + 1) s).rowEn = true) ∧
    ∀ y : Nat, ∃ k < 4, (timerRuns (k + 1) s).rowAddr.toNat = y % 4

/-! ## Interrupts (60_exceptions.md) -/

/-- R288: a request sets the source's pending bit, whatever IE is and whatever is pending, and changes nothing else. The
request stands at the head of `env`, the model's list of what arrives (log entry 3). A TIMER
request that comes in time (R335) never merges with another. -/
def Obligations.RequestSetsPending : Prop :=
  ∀ (s : State) (n : Source) (rest : List EnvEvent), s.cfg.valid = true → s.env = .request n :: rest →
    ∃ t, step s = .next t ∧ t = { s with env := rest, pend := t.pend } ∧ pendBit t n = true ∧
      (∀ m, m ≠ n → pendBit t m = pendBit s m) ∧ (pendBit s n = true → t.pend = s.pend) ∧
      (n = .timer → timerInTime s = true → pendBit s .timer = false)

/-- R290, R291, R294: with nothing arriving, a step from the main context enters the eligible source of highest priority,
TIMER before EDGE0 before EDGE1, rather than perform a micro-operation. When no source is eligible the main context makes
progress: it performs the head of CUR (R296). -/
def Obligations.DispatchIsObligatory : Prop :=
  ∀ s : State, s.cfg.valid = true → s.env = [] → s.ctx = .main →
    (pendBit s .timer = true → ieBit s .timer = true → step s = .next (enter .timer s)) ∧
    (¬ (pendBit s .timer = true ∧ ieBit s .timer = true) → pendBit s .edge0 = true → ieBit s .edge0 = true →
      step s = .next (enter .edge0 s)) ∧
    (¬ (pendBit s .timer = true ∧ ieBit s .timer = true) → ¬ (pendBit s .edge0 = true ∧ ieBit s .edge0 = true) →
      pendBit s .edge1 = true → ieBit s .edge1 = true → step s = .next (enter .edge1 s)) ∧
    ((∀ n, ¬ (pendBit s n = true ∧ ieBit s n = true)) → ∀ op rest, s.cur = op :: rest →
      step s = perform op { s with cur := rest })

/-- R292, R295, R26: a handler clears its own pending bit, returns to MAIN, and writes no state but TICK, PHASE, ROW_EN,
ROW_ADDR, OUT (the timer's) and its own flag (an edge's): not A0..A3, not RESULT, not CUR, not IE, not FB. -/
def Obligations.HandlerFrame : Prop :=
  ∀ (s : State) (n : Source),
    (enter n s = { s with
      ctx := .main, pend := (enter n s).pend, tick := (enter n s).tick, phase := (enter n s).phase,
      rowEn := (enter n s).rowEn, rowAddr := (enter n s).rowAddr, out := (enter n s).out,
      flag0 := (enter n s).flag0, flag1 := (enter n s).flag1 }) ∧
    (pendBit (enter n s) n = false ∧ ∀ m, m ≠ n → pendBit (enter n s) m = pendBit s m) ∧
    (n ≠ .timer → (enter n s).tick = s.tick ∧ (enter n s).phase = s.phase ∧ (enter n s).rowEn = s.rowEn ∧
      (enter n s).rowAddr = s.rowAddr ∧ (enter n s).out = s.out) ∧
    (enter n s).flag0 = (if n = .edge0 then 0x01#8 else s.flag0) ∧
    (enter n s).flag1 = (if n = .edge1 then 0x01#8 else s.flag1)

/-- R294: the order in which two handlers run has no effect on the state after both. -/
def Obligations.HandlerOrderIrrelevant : Prop :=
  ∀ (s : State) (m n : Source), enter m (enter n s) = enter n (enter m s)

/-- R26, R292, R295: a handler taken before a micro-operation does not change what the micro-operation does. Unless it reads
TICK or touches a flag, the state after both is the same in either order, but for OUT, which shows FB at the time of the
scan. -/
def Obligations.HandlersAreTransparent : Prop :=
  ∀ (s t : State) (n : Source) (op : MicroOp), perform op s = .next t →
    op ≠ .readTick → (∀ lane, op ≠ .readTickByte lane) → (∀ k, op ≠ .readFlag k) → (∀ k, op ≠ .clearFlag k) →
    ∃ u, perform op (enter n s) = .next u ∧ u = { enter n t with out := u.out } ∧ (n ≠ .timer → u = enter n t)

/-- R26, R32, R75, R220, R224: who writes what. TICK, PHASE, ROW_EN, ROW_ADDR and OUT change only in a step that enters the
timer handler. FB, RESULT, the font, the marquee, TEXT and IE change only when the main context performs a micro-operation,
with no source eligible. -/
def Obligations.OneWriterContext : Prop :=
  ∀ s t : State, step s = .next t →
    (¬ (s.ctx = .main ∧ nextSource s = some .timer) →
      t.tick = s.tick ∧ t.phase = s.phase ∧ t.rowEn = s.rowEn ∧ t.rowAddr = s.rowAddr ∧ t.out = s.out) ∧
    (¬ (s.ctx = .main ∧ nextSource s = none ∧ s.cur ≠ []) →
      t.fb = s.fb ∧ t.result = s.result ∧ t.fontBase = s.fontBase ∧ t.fontValid = s.fontValid ∧ t.mqText = s.mqText ∧
      t.mqLen = s.mqLen ∧ t.mqWidth = s.mqWidth ∧ t.mqHeight = s.mqHeight ∧ t.mqOX = s.mqOX ∧ t.mqOY = s.mqOY ∧
      t.text = s.text ∧ t.ie = s.ie)

/-- R33, R262, R260: FLAG[k] changes only in a step that enters EDGEk's handler, to 0x01, and in one that performs its
FLAG_CLEAR, to 0x00. With nothing arriving, a step that enters the handler does set it and one that performs the FLAG_CLEAR
does clear it. -/
def Obligations.FlagWriters : Prop :=
  ∀ s t : State, step s = .next t →
    (t.flag0 = s.flag0 ∨ (s.ctx = .main ∧ nextSource s = some .edge0 ∧ t.flag0 = 0x01#8) ∨
      (s.ctx = .main ∧ nextSource s = none ∧ s.cur.head? = some (.clearFlag 0) ∧ t.flag0 = 0x00#8)) ∧
    (t.flag1 = s.flag1 ∨ (s.ctx = .main ∧ nextSource s = some .edge1 ∧ t.flag1 = 0x01#8) ∨
      (s.ctx = .main ∧ nextSource s = none ∧ s.cur.head? = some (.clearFlag 1) ∧ t.flag1 = 0x00#8)) ∧
    (s.env = [] → s.ctx = .main →
      (nextSource s = some .edge0 → t.flag0 = 0x01#8) ∧ (nextSource s = some .edge1 → t.flag1 = 0x01#8) ∧
      (nextSource s = none → s.cur.head? = some (.clearFlag 0) → t.flag0 = 0x00#8) ∧
      (nextSource s = none → s.cur.head? = some (.clearFlag 1) → t.flag1 = 0x00#8))

/-! ## Faults (60_exceptions.md) -/

/-- R281: faults are precise. Every command is issued or faults; a command that is issued changes CUR only, and one that
faults changes the fault record only, empties CUR, and when it is the first fault records its code and its word. -/
def Obligations.FaultsArePrecise : Prop :=
  ∀ (s : State) (i : Instr),
    (∃ ops, exec i s = .next { s with cur := ops }) ∨
    (∃ t, exec i s = .next t ∧ t = { s with cur := [], faultCode := t.faultCode, faultCmd := t.faultCmd } ∧
      (s.faultCode = faultNone → t.faultCmd = encode i ∧ 1 ≤ t.faultCode.toNat ∧ t.faultCode.toNat ≤ 4))

/-- R39, R281: FAULT_CODE is sticky. Once it is not NONE no step changes it or FAULT_CMD; with CUR empty, as the fault left
it, no step gives the main context work, and FB, RESULT, the font, the marquee, TEXT and IE stay as they are. At any time,
whatever runs and whether or not there is a fault, the host reads either register into a variable of its own and nothing
else changes (the model's event `readFault`, which does not wait, log entry 25; the variable is the model's, log
entry 18). -/
def Obligations.FaultStopsMainContext : Prop :=
  (∀ s t : State, step s = .next t → s.faultCode ≠ faultNone →
    t.faultCode = s.faultCode ∧ t.faultCmd = s.faultCmd ∧
    (s.cur = [] → t.cur = [] ∧ t.fb = s.fb ∧ t.result = s.result ∧ t.fontBase = s.fontBase ∧
      t.fontValid = s.fontValid ∧ t.mqText = s.mqText ∧ t.mqLen = s.mqLen ∧ t.mqWidth = s.mqWidth ∧
      t.mqHeight = s.mqHeight ∧ t.mqOX = s.mqOX ∧ t.mqOY = s.mqOY ∧ t.text = s.text ∧ t.ie = s.ie)) ∧
  (∀ (s : State) (r : FaultReg) (x : Nat) (rest : List EnvEvent), s.cfg.valid = true →
    s.env = .readFault r x :: rest →
    ∃ t, step s = .next t ∧ t = { s with env := rest, hostVars := t.hostVars } ∧
      (r = .code → hostVar t x = s.faultCode.setWidth 32) ∧ (r = .cmd → hostVar t x = s.faultCmd) ∧
      ∀ y, y ≠ x → hostVar t y = hostVar s y)

/-! ## Reset and invariants (70_reset_and_hazards.md) -/

/-- R320: the state after reset, in every configuration. -/
def Obligations.ResetValues : Prop :=
  ∀ c : Config,
    let s := State.resetWith c
    s.cfg = c ∧ s.a0 = 0#16 ∧ s.a1 = 0#16 ∧ s.a2 = 0#16 ∧ s.a3 = 0#16 ∧ s.result = 0#32 ∧
    (∀ i, i < c.fbBytes → fbRead s i = 0xFF#8) ∧ s.phase = 0#2 ∧ s.fontBase = 0#16 ∧ s.fontValid = false ∧
    (∀ i, i < marqueeMax → mqTextRead s i = 0x00#8) ∧ s.mqLen = 0#8 ∧ s.mqWidth = 0 ∧ s.mqHeight = 0#8 ∧
    s.mqOX = 0 ∧ s.mqOY = 0 ∧ (∀ i, i < textSize → textRead s i = 0x00#8) ∧ s.tick = 0#32 ∧
    s.flag0 = 0x00#8 ∧ s.flag1 = 0x00#8 ∧ s.ie = 0b000#3 ∧ s.pend = 0b000#3 ∧ s.ctx = .main ∧ s.cur = [] ∧
    s.rowEn = false ∧ s.rowAddr = 0#2 ∧ s.out = [] ∧ s.faultCode = faultNone ∧ s.faultCmd = 0#32

/-- Reset establishes the invariant, in every configuration R7 allows. -/
def Obligations.ResetHasInv : Prop :=
  ∀ c : Config, c.valid = true → (State.resetWith c).Inv

/-- Every step keeps the invariant: the byte stores stay in canonical form, TICK stays below 2^TICK_WIDTH, a flag stays 0x00
or 0x01, a fault keeps CUR empty, and the rows lit are those of the phase before PHASE. -/
def Obligations.StepKeepsInv : Prop :=
  ∀ s t : State, s.Inv → step s = .next t → t.Inv ∧ t.cfg = s.cfg

/-- From a state with the invariant the machine never stops: every step answers a next state, with whatever the environment
does. -/
def Obligations.InvStepsOn : Prop :=
  ∀ s : State, s.Inv → ∃ t, step s = .next t
end

