-- ==== Sys2Proof/Laws/Encoding.lean ====
section
/-! SUPPORT. The fields of a word and the word of the fields are inverse to each other. -/

namespace Sys2Proof

/-- Each bit of a packed word is the bit of its field (R91). -/
theorem Fields.getLsbD_pack (f : Fields) (i : Nat) : f.pack.getLsbD i =
    if i < 8 then f.op.getLsbD i
    else if i < 11 then f.mode.getLsbD (i - 8)
    else if i < 12 then f.v.getLsbD (i - 11)
    else if i < 14 then f.kind.getLsbD (i - 12)
    else if i < 16 then f.src.getLsbD (i - 14)
    else if i < 24 then f.b8.getLsbD (i - 16)
    else f.rsv.getLsbD (i - 24) := by
  have h : f.pack.getLsbD i = BitVec.getLsbD (w := 8 + 8 + 2 + 2 + 1 + 3 + 8)
      (f.rsv ++ f.b8 ++ f.src ++ f.kind ++ f.v ++ f.mode ++ f.op) i := rfl
  rw [h]
  simp only [BitVec.getLsbD_append]
  repeat' split
  all_goals first
    | (exfalso; omega)
    | congr 1

@[simp] theorem Fields.unpack_pack (f : Fields) : Fields.unpack f.pack = f := by
  obtain ⟨op, mode, v, kind, src, b8, rsv⟩ := f
  simp only [Fields.unpack, Fields.mk.injEq]
  refine ⟨?_, ?_, ?_, ?_, ?_, ?_, ?_⟩ <;> ext i hi <;>
    rw [BitVec.getElem_extractLsb', Fields.getLsbD_pack, ← BitVec.getLsbD_eq_getElem]
  all_goals
    repeat' split
    all_goals first
      | (exfalso; omega)
      | (congr 1; omega)

@[simp] theorem Fields.pack_unpack (w : Word) : (Fields.unpack w).pack = w := by
  ext i hi
  rw [← BitVec.getLsbD_eq_getElem, Fields.getLsbD_pack, ← BitVec.getLsbD_eq_getElem]
  simp only [Fields.unpack, BitVec.getLsbD_extractLsb']
  repeat' split
  all_goals
    rw [decide_eq_true (by omega), Bool.true_and]
    congr 1
    omega

/-- A word is determined by its fields. -/
theorem Fields.unpack_inj {w x : Word} (h : Fields.unpack w = Fields.unpack x) : w = x := by
  rw [← Fields.pack_unpack w, h, Fields.pack_unpack]

/-- Decoding an encoded command reads the fields its row of R97 gives it. -/
theorem decodeFields_encode (i : Instr) : decodeFields (Fields.unpack (encode i)) = decodeFields (encodeFields i) := by
  rw [encode, Fields.unpack_pack]

end Sys2Proof
end

