-- ==== Sys2Proof/Laws/Memory.lean ====
section
/-! SUPPORT. The laws of the byte stores: reading after writing, the canonical form, and that equal contents are equal
data. -/

namespace Sys2Proof.Machine

@[simp] theorem Memory.read_nil (u : Byte) (a : Nat) : Memory.read u [] a = u := rfl

/-- In a store whose entries start at `lo`, an address below `lo` is unlisted. -/
theorem Memory.read_below {u : Byte} {hi : Nat} : ∀ {m : Memory} {lo a : Nat},
    Memory.wfFrom u hi lo m = true → a < lo → Memory.read u m a = u
  | [], _, _, _, _ => rfl
  | (k, v) :: m, lo, a, h, ha => by
    simp only [Memory.wfFrom, Bool.and_eq_true, decide_eq_true_eq] at h
    obtain ⟨⟨⟨hlo, -⟩, -⟩, hm⟩ := h
    have hk : k ≠ a := by omega
    simp only [Memory.read, hk, if_false]
    exact Memory.read_below hm (by omega)

/-- An address at or past the size is unlisted. -/
theorem Memory.read_above {u : Byte} {hi : Nat} : ∀ {m : Memory} {lo a : Nat},
    Memory.wfFrom u hi lo m = true → hi ≤ a → Memory.read u m a = u
  | [], _, _, _, _ => rfl
  | (k, v) :: m, lo, a, h, ha => by
    simp only [Memory.wfFrom, Bool.and_eq_true, decide_eq_true_eq] at h
    obtain ⟨⟨⟨-, hhi⟩, -⟩, hm⟩ := h
    have hk : k ≠ a := by omega
    simp only [Memory.read, hk, if_false]
    exact Memory.read_above hm ha

/-- A write leaves every other byte alone. -/
@[simp] theorem Memory.read_write_other {u v : Byte} : ∀ (m : Memory) {a b : Nat},
    a ≠ b → Memory.read u (Memory.write u m a v) b = Memory.read u m b
  | [], a, b, h => by
    simp only [Memory.write]
    split <;> simp [Memory.read, h]
  | (k, w) :: m, a, b, h => by
    simp only [Memory.write]
    split
    · split <;> simp [Memory.read, h]
    · split
      · subst_vars
        split <;> simp [Memory.read, h]
      · simp [Memory.read, Memory.read_write_other m h]

theorem Memory.read_write_same_from {u v : Byte} {hi : Nat} : ∀ {m : Memory} {lo a : Nat},
    Memory.wfFrom u hi lo m = true → Memory.read u (Memory.write u m a v) a = v
  | [], _, a, _ => by
    simp only [Memory.write]
    split <;> simp_all [Memory.read]
  | (k, w) :: m, lo, a, h => by
    simp only [Memory.wfFrom, Bool.and_eq_true, decide_eq_true_eq] at h
    obtain ⟨⟨⟨hlo, hk⟩, hw⟩, hm⟩ := h
    simp only [Memory.write]
    split
    · split
      · rename_i hlt hv
        have hka : k ≠ a := by omega
        simp only [Memory.read, hka, if_false, hv]
        exact Memory.read_below hm (by omega)
      · simp [Memory.read]
    · split
      · split
        · rename_i hv
          rw [hv]
          exact Memory.read_below hm (by omega)
        · simp [Memory.read]
      · rename_i h1 h2
        have hka : k ≠ a := fun hc => h2 hc.symm
        simp only [Memory.read, hka, if_false]
        exact Memory.read_write_same_from hm

/-- A byte written reads as what was written. -/
theorem Memory.read_write_same {u v : Byte} {size a : Nat} {m : Memory} (h : Memory.wf u size m = true) :
    Memory.read u (Memory.write u m a v) a = v :=
  Memory.read_write_same_from h

/-- The canonical form from a lower start. -/
theorem Memory.wfFrom_mono {u : Byte} {hi : Nat} : ∀ {m : Memory} {lo lo' : Nat},
    Memory.wfFrom u hi lo m = true → lo' ≤ lo → Memory.wfFrom u hi lo' m = true
  | [], _, _, _, _ => rfl
  | (k, v) :: m, lo, lo', h, hl => by
    simp only [Memory.wfFrom, Bool.and_eq_true, decide_eq_true_eq] at h ⊢
    exact ⟨⟨⟨by omega, h.1.1.2⟩, h.1.2⟩, h.2⟩

/-- A write inside the size keeps the canonical form. -/
theorem Memory.wfFrom_write {u v : Byte} {hi : Nat} : ∀ {m : Memory} {lo a : Nat},
    Memory.wfFrom u hi lo m = true → lo ≤ a → a < hi → Memory.wfFrom u hi lo (Memory.write u m a v) = true
  | [], lo, a, _, hl, hh => by
    simp only [Memory.write]
    split <;> simp_all [Memory.wfFrom]
  | (k, w) :: m, lo, a, h, hl, hh => by
    have h' := h
    simp only [Memory.wfFrom, Bool.and_eq_true, decide_eq_true_eq, bne_iff_ne] at h'
    obtain ⟨⟨⟨hlo, hk⟩, hw⟩, hm⟩ := h'
    simp only [Memory.write]
    split
    · split
      · exact h
      · rename_i hlt hv
        simp only [Memory.wfFrom, Bool.and_eq_true, decide_eq_true_eq, bne_iff_ne]
        exact ⟨⟨⟨hl, hh⟩, hv⟩, ⟨⟨⟨by omega, hk⟩, hw⟩, hm⟩⟩
    · split
      · rename_i heq
        subst heq
        split
        · exact Memory.wfFrom_mono hm (by omega)
        · rename_i hv
          simp only [Memory.wfFrom, Bool.and_eq_true, decide_eq_true_eq, bne_iff_ne]
          exact ⟨⟨⟨hl, hh⟩, hv⟩, hm⟩
      · simp only [Memory.wfFrom, Bool.and_eq_true, decide_eq_true_eq, bne_iff_ne]
        exact ⟨⟨⟨hlo, hk⟩, hw⟩, Memory.wfFrom_write hm (by omega) hh⟩

/-- A write inside the size keeps the canonical form. -/
theorem Memory.wf_write {u v : Byte} {size a : Nat} {m : Memory} (h : Memory.wf u size m = true) (ha : a < size) :
    Memory.wf u size (Memory.write u m a v) = true :=
  Memory.wfFrom_write h (Nat.zero_le _) ha

/-- Writing a list of bytes inside the size keeps the canonical form. -/
theorem Memory.wf_writeList {u : Byte} {size : Nat} : ∀ {bs : List Byte} {m : Memory} {i : Nat},
    Memory.wf u size m = true → i + bs.length ≤ size → Memory.wf u size (Memory.writeList u m i bs) = true
  | [], _, _, h, _ => h
  | b :: bs, m, i, h, hi => by
    simp only [List.length_cons] at hi
    rw [Memory.writeList]
    exact Memory.wf_writeList (Memory.wf_write h (by omega)) (by omega)

/-- Bytes below the first or past the last of a list write are left alone. -/
theorem Memory.read_writeList_other {u : Byte} : ∀ {bs : List Byte} {m : Memory} {i a : Nat},
    a < i ∨ i + bs.length ≤ a → Memory.read u (Memory.writeList u m i bs) a = Memory.read u m a
  | [], _, _, _, _ => rfl
  | b :: bs, m, i, a, h => by
    simp only [List.length_cons] at h
    simp only [Memory.writeList]
    rw [Memory.read_writeList_other (by omega), Memory.read_write_other _ (by omega)]

/-- Byte `i + k` after a list write at `i` is byte `k` of the list. -/
theorem Memory.read_writeList_same {u : Byte} {size : Nat} : ∀ {bs : List Byte} {m : Memory} {i k : Nat} (hk : k < bs.length),
    Memory.wf u size m = true → i + bs.length ≤ size → Memory.read u (Memory.writeList u m i bs) (i + k) = bs[k]
  | b :: bs, m, i, k, hk, h, hi => by
    simp only [List.length_cons] at hi hk
    simp only [Memory.writeList]
    cases k with
    | zero =>
      rw [Memory.read_writeList_other (by omega)]
      simpa using Memory.read_write_same h
    | succ k =>
      have := Memory.read_writeList_same (k := k) (i := i + 1) (bs := bs) (m := Memory.write u m i b) (by omega)
        (Memory.wf_write h (by omega)) (by omega)
      simpa [Nat.add_assoc, Nat.add_comm 1 k] using this

/-- Two stores in canonical form with the same contents are the same data. -/
theorem Memory.ext_of_wf {u : Byte} {hi : Nat} : ∀ {m n : Memory} {lo : Nat},
    Memory.wfFrom u hi lo m = true → Memory.wfFrom u hi lo n = true →
    (∀ a, Memory.read u m a = Memory.read u n a) → m = n
  | [], [], _, _, _, _ => rfl
  | [], (k, v) :: n, lo, _, hn, h => by
    simp only [Memory.wfFrom, Bool.and_eq_true, bne_iff_ne] at hn
    have := h k
    simp only [Memory.read, if_true] at this
    exact absurd this.symm hn.1.2
  | (k, v) :: m, [], lo, hm, _, h => by
    simp only [Memory.wfFrom, Bool.and_eq_true, bne_iff_ne] at hm
    have := h k
    simp only [Memory.read, if_true] at this
    exact absurd this hm.1.2
  | (k, v) :: m, (l, w) :: n, lo, hm, hn, h => by
    have hm' := hm
    have hn' := hn
    simp only [Memory.wfFrom, Bool.and_eq_true, bne_iff_ne, decide_eq_true_eq] at hm' hn'
    have hkl : k = l := by
      rcases Nat.lt_trichotomy k l with hlt | heq | hlt
      · have := h k
        have hne : l ≠ k := by omega
        simp only [Memory.read, if_true, hne, if_false] at this
        rw [Memory.read_below hn'.2 (by omega)] at this
        exact absurd this hm'.1.2
      · exact heq
      · have := h l
        have hne : k ≠ l := by omega
        simp only [Memory.read, if_true, hne, if_false] at this
        rw [Memory.read_below hm'.2 (by omega)] at this
        exact absurd this.symm hn'.1.2
    subst hkl
    have hvw : v = w := by simpa [Memory.read] using h k
    subst hvw
    have : m = n := Memory.ext_of_wf hm'.2 hn'.2 fun a => by
      by_cases ha : k = a
      · subst ha
        rw [Memory.read_below hm'.2 (by omega), Memory.read_below hn'.2 (by omega)]
      · simpa [Memory.read, ha] using h a
    rw [this]

end Sys2Proof.Machine
end

