-- ==== Sys2Proof/Laws/State.lean ====
section
/-! SUPPORT. One lemma per field that each named update of the state leaves alone, and one for each field it writes. -/

namespace Sys2Proof.Machine

/-! ## FbWrite -/

@[simp] theorem fbWrite_cfg (s : State) (i : Nat) (v : Byte) : (fbWrite s i v).cfg = s.cfg := rfl
@[simp] theorem fbWrite_a0 (s : State) (i : Nat) (v : Byte) : (fbWrite s i v).a0 = s.a0 := rfl
@[simp] theorem fbWrite_a1 (s : State) (i : Nat) (v : Byte) : (fbWrite s i v).a1 = s.a1 := rfl
@[simp] theorem fbWrite_a2 (s : State) (i : Nat) (v : Byte) : (fbWrite s i v).a2 = s.a2 := rfl
@[simp] theorem fbWrite_a3 (s : State) (i : Nat) (v : Byte) : (fbWrite s i v).a3 = s.a3 := rfl
@[simp] theorem fbWrite_result (s : State) (i : Nat) (v : Byte) : (fbWrite s i v).result = s.result := rfl
@[simp] theorem fbWrite_fb (s : State) (i : Nat) (v : Byte) : (fbWrite s i v).fb = Memory.write fbUnlisted s.fb i v := rfl
@[simp] theorem fbWrite_phase (s : State) (i : Nat) (v : Byte) : (fbWrite s i v).phase = s.phase := rfl
@[simp] theorem fbWrite_fontBase (s : State) (i : Nat) (v : Byte) : (fbWrite s i v).fontBase = s.fontBase := rfl
@[simp] theorem fbWrite_fontValid (s : State) (i : Nat) (v : Byte) : (fbWrite s i v).fontValid = s.fontValid := rfl
@[simp] theorem fbWrite_mqText (s : State) (i : Nat) (v : Byte) : (fbWrite s i v).mqText = s.mqText := rfl
@[simp] theorem fbWrite_mqLen (s : State) (i : Nat) (v : Byte) : (fbWrite s i v).mqLen = s.mqLen := rfl
@[simp] theorem fbWrite_mqWidth (s : State) (i : Nat) (v : Byte) : (fbWrite s i v).mqWidth = s.mqWidth := rfl
@[simp] theorem fbWrite_mqHeight (s : State) (i : Nat) (v : Byte) : (fbWrite s i v).mqHeight = s.mqHeight := rfl
@[simp] theorem fbWrite_mqOX (s : State) (i : Nat) (v : Byte) : (fbWrite s i v).mqOX = s.mqOX := rfl
@[simp] theorem fbWrite_mqOY (s : State) (i : Nat) (v : Byte) : (fbWrite s i v).mqOY = s.mqOY := rfl
@[simp] theorem fbWrite_text (s : State) (i : Nat) (v : Byte) : (fbWrite s i v).text = s.text := rfl
@[simp] theorem fbWrite_tick (s : State) (i : Nat) (v : Byte) : (fbWrite s i v).tick = s.tick := rfl
@[simp] theorem fbWrite_flag0 (s : State) (i : Nat) (v : Byte) : (fbWrite s i v).flag0 = s.flag0 := rfl
@[simp] theorem fbWrite_flag1 (s : State) (i : Nat) (v : Byte) : (fbWrite s i v).flag1 = s.flag1 := rfl
@[simp] theorem fbWrite_ie (s : State) (i : Nat) (v : Byte) : (fbWrite s i v).ie = s.ie := rfl
@[simp] theorem fbWrite_pend (s : State) (i : Nat) (v : Byte) : (fbWrite s i v).pend = s.pend := rfl
@[simp] theorem fbWrite_ctx (s : State) (i : Nat) (v : Byte) : (fbWrite s i v).ctx = s.ctx := rfl
@[simp] theorem fbWrite_cur (s : State) (i : Nat) (v : Byte) : (fbWrite s i v).cur = s.cur := rfl
@[simp] theorem fbWrite_rowEn (s : State) (i : Nat) (v : Byte) : (fbWrite s i v).rowEn = s.rowEn := rfl
@[simp] theorem fbWrite_rowAddr (s : State) (i : Nat) (v : Byte) : (fbWrite s i v).rowAddr = s.rowAddr := rfl
@[simp] theorem fbWrite_out (s : State) (i : Nat) (v : Byte) : (fbWrite s i v).out = s.out := rfl
@[simp] theorem fbWrite_faultCode (s : State) (i : Nat) (v : Byte) : (fbWrite s i v).faultCode = s.faultCode := rfl
@[simp] theorem fbWrite_faultCmd (s : State) (i : Nat) (v : Byte) : (fbWrite s i v).faultCmd = s.faultCmd := rfl
@[simp] theorem fbWrite_busBusy (s : State) (i : Nat) (v : Byte) : (fbWrite s i v).busBusy = s.busBusy := rfl
@[simp] theorem fbWrite_env (s : State) (i : Nat) (v : Byte) : (fbWrite s i v).env = s.env := rfl
@[simp] theorem fbWrite_hostVars (s : State) (i : Nat) (v : Byte) : (fbWrite s i v).hostVars = s.hostVars := rfl

/-! ## Plot -/

@[simp] theorem plot_cfg (s : State) (x y : Int) (mode : Mode) (v : Bool) : (plot s x y mode v).cfg = s.cfg := by
  unfold plot
  split <;> rfl
@[simp] theorem plot_a0 (s : State) (x y : Int) (mode : Mode) (v : Bool) : (plot s x y mode v).a0 = s.a0 := by
  unfold plot
  split <;> rfl
@[simp] theorem plot_a1 (s : State) (x y : Int) (mode : Mode) (v : Bool) : (plot s x y mode v).a1 = s.a1 := by
  unfold plot
  split <;> rfl
@[simp] theorem plot_a2 (s : State) (x y : Int) (mode : Mode) (v : Bool) : (plot s x y mode v).a2 = s.a2 := by
  unfold plot
  split <;> rfl
@[simp] theorem plot_a3 (s : State) (x y : Int) (mode : Mode) (v : Bool) : (plot s x y mode v).a3 = s.a3 := by
  unfold plot
  split <;> rfl
@[simp] theorem plot_result (s : State) (x y : Int) (mode : Mode) (v : Bool) : (plot s x y mode v).result = s.result := by
  unfold plot
  split <;> rfl
@[simp] theorem plot_phase (s : State) (x y : Int) (mode : Mode) (v : Bool) : (plot s x y mode v).phase = s.phase := by
  unfold plot
  split <;> rfl
@[simp] theorem plot_fontBase (s : State) (x y : Int) (mode : Mode) (v : Bool) : (plot s x y mode v).fontBase = s.fontBase := by
  unfold plot
  split <;> rfl
@[simp] theorem plot_fontValid (s : State) (x y : Int) (mode : Mode) (v : Bool) : (plot s x y mode v).fontValid = s.fontValid := by
  unfold plot
  split <;> rfl
@[simp] theorem plot_mqText (s : State) (x y : Int) (mode : Mode) (v : Bool) : (plot s x y mode v).mqText = s.mqText := by
  unfold plot
  split <;> rfl
@[simp] theorem plot_mqLen (s : State) (x y : Int) (mode : Mode) (v : Bool) : (plot s x y mode v).mqLen = s.mqLen := by
  unfold plot
  split <;> rfl
@[simp] theorem plot_mqWidth (s : State) (x y : Int) (mode : Mode) (v : Bool) : (plot s x y mode v).mqWidth = s.mqWidth := by
  unfold plot
  split <;> rfl
@[simp] theorem plot_mqHeight (s : State) (x y : Int) (mode : Mode) (v : Bool) : (plot s x y mode v).mqHeight = s.mqHeight := by
  unfold plot
  split <;> rfl
@[simp] theorem plot_mqOX (s : State) (x y : Int) (mode : Mode) (v : Bool) : (plot s x y mode v).mqOX = s.mqOX := by
  unfold plot
  split <;> rfl
@[simp] theorem plot_mqOY (s : State) (x y : Int) (mode : Mode) (v : Bool) : (plot s x y mode v).mqOY = s.mqOY := by
  unfold plot
  split <;> rfl
@[simp] theorem plot_text (s : State) (x y : Int) (mode : Mode) (v : Bool) : (plot s x y mode v).text = s.text := by
  unfold plot
  split <;> rfl
@[simp] theorem plot_tick (s : State) (x y : Int) (mode : Mode) (v : Bool) : (plot s x y mode v).tick = s.tick := by
  unfold plot
  split <;> rfl
@[simp] theorem plot_flag0 (s : State) (x y : Int) (mode : Mode) (v : Bool) : (plot s x y mode v).flag0 = s.flag0 := by
  unfold plot
  split <;> rfl
@[simp] theorem plot_flag1 (s : State) (x y : Int) (mode : Mode) (v : Bool) : (plot s x y mode v).flag1 = s.flag1 := by
  unfold plot
  split <;> rfl
@[simp] theorem plot_ie (s : State) (x y : Int) (mode : Mode) (v : Bool) : (plot s x y mode v).ie = s.ie := by
  unfold plot
  split <;> rfl
@[simp] theorem plot_pend (s : State) (x y : Int) (mode : Mode) (v : Bool) : (plot s x y mode v).pend = s.pend := by
  unfold plot
  split <;> rfl
@[simp] theorem plot_ctx (s : State) (x y : Int) (mode : Mode) (v : Bool) : (plot s x y mode v).ctx = s.ctx := by
  unfold plot
  split <;> rfl
@[simp] theorem plot_cur (s : State) (x y : Int) (mode : Mode) (v : Bool) : (plot s x y mode v).cur = s.cur := by
  unfold plot
  split <;> rfl
@[simp] theorem plot_rowEn (s : State) (x y : Int) (mode : Mode) (v : Bool) : (plot s x y mode v).rowEn = s.rowEn := by
  unfold plot
  split <;> rfl
@[simp] theorem plot_rowAddr (s : State) (x y : Int) (mode : Mode) (v : Bool) : (plot s x y mode v).rowAddr = s.rowAddr := by
  unfold plot
  split <;> rfl
@[simp] theorem plot_out (s : State) (x y : Int) (mode : Mode) (v : Bool) : (plot s x y mode v).out = s.out := by
  unfold plot
  split <;> rfl
@[simp] theorem plot_faultCode (s : State) (x y : Int) (mode : Mode) (v : Bool) : (plot s x y mode v).faultCode = s.faultCode := by
  unfold plot
  split <;> rfl
@[simp] theorem plot_faultCmd (s : State) (x y : Int) (mode : Mode) (v : Bool) : (plot s x y mode v).faultCmd = s.faultCmd := by
  unfold plot
  split <;> rfl
@[simp] theorem plot_busBusy (s : State) (x y : Int) (mode : Mode) (v : Bool) : (plot s x y mode v).busBusy = s.busBusy := by
  unfold plot
  split <;> rfl
@[simp] theorem plot_env (s : State) (x y : Int) (mode : Mode) (v : Bool) : (plot s x y mode v).env = s.env := by
  unfold plot
  split <;> rfl
@[simp] theorem plot_hostVars (s : State) (x y : Int) (mode : Mode) (v : Bool) : (plot s x y mode v).hostVars = s.hostVars := by
  unfold plot
  split <;> rfl

/-! ## IE[n] := b -/

@[simp] theorem writeIe_cfg (s : State) (n : Source) (b : Bool) : (writeIe n b s).cfg = s.cfg := rfl
@[simp] theorem writeIe_a0 (s : State) (n : Source) (b : Bool) : (writeIe n b s).a0 = s.a0 := rfl
@[simp] theorem writeIe_a1 (s : State) (n : Source) (b : Bool) : (writeIe n b s).a1 = s.a1 := rfl
@[simp] theorem writeIe_a2 (s : State) (n : Source) (b : Bool) : (writeIe n b s).a2 = s.a2 := rfl
@[simp] theorem writeIe_a3 (s : State) (n : Source) (b : Bool) : (writeIe n b s).a3 = s.a3 := rfl
@[simp] theorem writeIe_result (s : State) (n : Source) (b : Bool) : (writeIe n b s).result = s.result := rfl
@[simp] theorem writeIe_fb (s : State) (n : Source) (b : Bool) : (writeIe n b s).fb = s.fb := rfl
@[simp] theorem writeIe_phase (s : State) (n : Source) (b : Bool) : (writeIe n b s).phase = s.phase := rfl
@[simp] theorem writeIe_fontBase (s : State) (n : Source) (b : Bool) : (writeIe n b s).fontBase = s.fontBase := rfl
@[simp] theorem writeIe_fontValid (s : State) (n : Source) (b : Bool) : (writeIe n b s).fontValid = s.fontValid := rfl
@[simp] theorem writeIe_mqText (s : State) (n : Source) (b : Bool) : (writeIe n b s).mqText = s.mqText := rfl
@[simp] theorem writeIe_mqLen (s : State) (n : Source) (b : Bool) : (writeIe n b s).mqLen = s.mqLen := rfl
@[simp] theorem writeIe_mqWidth (s : State) (n : Source) (b : Bool) : (writeIe n b s).mqWidth = s.mqWidth := rfl
@[simp] theorem writeIe_mqHeight (s : State) (n : Source) (b : Bool) : (writeIe n b s).mqHeight = s.mqHeight := rfl
@[simp] theorem writeIe_mqOX (s : State) (n : Source) (b : Bool) : (writeIe n b s).mqOX = s.mqOX := rfl
@[simp] theorem writeIe_mqOY (s : State) (n : Source) (b : Bool) : (writeIe n b s).mqOY = s.mqOY := rfl
@[simp] theorem writeIe_text (s : State) (n : Source) (b : Bool) : (writeIe n b s).text = s.text := rfl
@[simp] theorem writeIe_tick (s : State) (n : Source) (b : Bool) : (writeIe n b s).tick = s.tick := rfl
@[simp] theorem writeIe_flag0 (s : State) (n : Source) (b : Bool) : (writeIe n b s).flag0 = s.flag0 := rfl
@[simp] theorem writeIe_flag1 (s : State) (n : Source) (b : Bool) : (writeIe n b s).flag1 = s.flag1 := rfl
@[simp] theorem writeIe_ie (s : State) (n : Source) (b : Bool) : (writeIe n b s).ie = putBit s.ie (sourceBit n) b := rfl
@[simp] theorem writeIe_pend (s : State) (n : Source) (b : Bool) : (writeIe n b s).pend = s.pend := rfl
@[simp] theorem writeIe_ctx (s : State) (n : Source) (b : Bool) : (writeIe n b s).ctx = s.ctx := rfl
@[simp] theorem writeIe_cur (s : State) (n : Source) (b : Bool) : (writeIe n b s).cur = s.cur := rfl
@[simp] theorem writeIe_rowEn (s : State) (n : Source) (b : Bool) : (writeIe n b s).rowEn = s.rowEn := rfl
@[simp] theorem writeIe_rowAddr (s : State) (n : Source) (b : Bool) : (writeIe n b s).rowAddr = s.rowAddr := rfl
@[simp] theorem writeIe_out (s : State) (n : Source) (b : Bool) : (writeIe n b s).out = s.out := rfl
@[simp] theorem writeIe_faultCode (s : State) (n : Source) (b : Bool) : (writeIe n b s).faultCode = s.faultCode := rfl
@[simp] theorem writeIe_faultCmd (s : State) (n : Source) (b : Bool) : (writeIe n b s).faultCmd = s.faultCmd := rfl
@[simp] theorem writeIe_busBusy (s : State) (n : Source) (b : Bool) : (writeIe n b s).busBusy = s.busBusy := rfl
@[simp] theorem writeIe_env (s : State) (n : Source) (b : Bool) : (writeIe n b s).env = s.env := rfl
@[simp] theorem writeIe_hostVars (s : State) (n : Source) (b : Bool) : (writeIe n b s).hostVars = s.hostVars := rfl

/-! ## FLAG[k] := v -/

@[simp] theorem writeFlag_cfg (s : State) (k : Fin 2) (v : Byte) : (writeFlag k v s).cfg = s.cfg := by
  unfold writeFlag
  split <;> rfl
@[simp] theorem writeFlag_a0 (s : State) (k : Fin 2) (v : Byte) : (writeFlag k v s).a0 = s.a0 := by
  unfold writeFlag
  split <;> rfl
@[simp] theorem writeFlag_a1 (s : State) (k : Fin 2) (v : Byte) : (writeFlag k v s).a1 = s.a1 := by
  unfold writeFlag
  split <;> rfl
@[simp] theorem writeFlag_a2 (s : State) (k : Fin 2) (v : Byte) : (writeFlag k v s).a2 = s.a2 := by
  unfold writeFlag
  split <;> rfl
@[simp] theorem writeFlag_a3 (s : State) (k : Fin 2) (v : Byte) : (writeFlag k v s).a3 = s.a3 := by
  unfold writeFlag
  split <;> rfl
@[simp] theorem writeFlag_result (s : State) (k : Fin 2) (v : Byte) : (writeFlag k v s).result = s.result := by
  unfold writeFlag
  split <;> rfl
@[simp] theorem writeFlag_fb (s : State) (k : Fin 2) (v : Byte) : (writeFlag k v s).fb = s.fb := by
  unfold writeFlag
  split <;> rfl
@[simp] theorem writeFlag_phase (s : State) (k : Fin 2) (v : Byte) : (writeFlag k v s).phase = s.phase := by
  unfold writeFlag
  split <;> rfl
@[simp] theorem writeFlag_fontBase (s : State) (k : Fin 2) (v : Byte) : (writeFlag k v s).fontBase = s.fontBase := by
  unfold writeFlag
  split <;> rfl
@[simp] theorem writeFlag_fontValid (s : State) (k : Fin 2) (v : Byte) : (writeFlag k v s).fontValid = s.fontValid := by
  unfold writeFlag
  split <;> rfl
@[simp] theorem writeFlag_mqText (s : State) (k : Fin 2) (v : Byte) : (writeFlag k v s).mqText = s.mqText := by
  unfold writeFlag
  split <;> rfl
@[simp] theorem writeFlag_mqLen (s : State) (k : Fin 2) (v : Byte) : (writeFlag k v s).mqLen = s.mqLen := by
  unfold writeFlag
  split <;> rfl
@[simp] theorem writeFlag_mqWidth (s : State) (k : Fin 2) (v : Byte) : (writeFlag k v s).mqWidth = s.mqWidth := by
  unfold writeFlag
  split <;> rfl
@[simp] theorem writeFlag_mqHeight (s : State) (k : Fin 2) (v : Byte) : (writeFlag k v s).mqHeight = s.mqHeight := by
  unfold writeFlag
  split <;> rfl
@[simp] theorem writeFlag_mqOX (s : State) (k : Fin 2) (v : Byte) : (writeFlag k v s).mqOX = s.mqOX := by
  unfold writeFlag
  split <;> rfl
@[simp] theorem writeFlag_mqOY (s : State) (k : Fin 2) (v : Byte) : (writeFlag k v s).mqOY = s.mqOY := by
  unfold writeFlag
  split <;> rfl
@[simp] theorem writeFlag_text (s : State) (k : Fin 2) (v : Byte) : (writeFlag k v s).text = s.text := by
  unfold writeFlag
  split <;> rfl
@[simp] theorem writeFlag_tick (s : State) (k : Fin 2) (v : Byte) : (writeFlag k v s).tick = s.tick := by
  unfold writeFlag
  split <;> rfl
@[simp] theorem writeFlag_ie (s : State) (k : Fin 2) (v : Byte) : (writeFlag k v s).ie = s.ie := by
  unfold writeFlag
  split <;> rfl
@[simp] theorem writeFlag_pend (s : State) (k : Fin 2) (v : Byte) : (writeFlag k v s).pend = s.pend := by
  unfold writeFlag
  split <;> rfl
@[simp] theorem writeFlag_ctx (s : State) (k : Fin 2) (v : Byte) : (writeFlag k v s).ctx = s.ctx := by
  unfold writeFlag
  split <;> rfl
@[simp] theorem writeFlag_cur (s : State) (k : Fin 2) (v : Byte) : (writeFlag k v s).cur = s.cur := by
  unfold writeFlag
  split <;> rfl
@[simp] theorem writeFlag_rowEn (s : State) (k : Fin 2) (v : Byte) : (writeFlag k v s).rowEn = s.rowEn := by
  unfold writeFlag
  split <;> rfl
@[simp] theorem writeFlag_rowAddr (s : State) (k : Fin 2) (v : Byte) : (writeFlag k v s).rowAddr = s.rowAddr := by
  unfold writeFlag
  split <;> rfl
@[simp] theorem writeFlag_out (s : State) (k : Fin 2) (v : Byte) : (writeFlag k v s).out = s.out := by
  unfold writeFlag
  split <;> rfl
@[simp] theorem writeFlag_faultCode (s : State) (k : Fin 2) (v : Byte) : (writeFlag k v s).faultCode = s.faultCode := by
  unfold writeFlag
  split <;> rfl
@[simp] theorem writeFlag_faultCmd (s : State) (k : Fin 2) (v : Byte) : (writeFlag k v s).faultCmd = s.faultCmd := by
  unfold writeFlag
  split <;> rfl
@[simp] theorem writeFlag_busBusy (s : State) (k : Fin 2) (v : Byte) : (writeFlag k v s).busBusy = s.busBusy := by
  unfold writeFlag
  split <;> rfl
@[simp] theorem writeFlag_env (s : State) (k : Fin 2) (v : Byte) : (writeFlag k v s).env = s.env := by
  unfold writeFlag
  split <;> rfl
@[simp] theorem writeFlag_hostVars (s : State) (k : Fin 2) (v : Byte) : (writeFlag k v s).hostVars = s.hostVars := by
  unfold writeFlag
  split <;> rfl

/-! ## A request -/

@[simp] theorem requestSource_cfg (s : State) (n : Source) : (requestSource n s).cfg = s.cfg := rfl
@[simp] theorem requestSource_a0 (s : State) (n : Source) : (requestSource n s).a0 = s.a0 := rfl
@[simp] theorem requestSource_a1 (s : State) (n : Source) : (requestSource n s).a1 = s.a1 := rfl
@[simp] theorem requestSource_a2 (s : State) (n : Source) : (requestSource n s).a2 = s.a2 := rfl
@[simp] theorem requestSource_a3 (s : State) (n : Source) : (requestSource n s).a3 = s.a3 := rfl
@[simp] theorem requestSource_result (s : State) (n : Source) : (requestSource n s).result = s.result := rfl
@[simp] theorem requestSource_fb (s : State) (n : Source) : (requestSource n s).fb = s.fb := rfl
@[simp] theorem requestSource_phase (s : State) (n : Source) : (requestSource n s).phase = s.phase := rfl
@[simp] theorem requestSource_fontBase (s : State) (n : Source) : (requestSource n s).fontBase = s.fontBase := rfl
@[simp] theorem requestSource_fontValid (s : State) (n : Source) : (requestSource n s).fontValid = s.fontValid := rfl
@[simp] theorem requestSource_mqText (s : State) (n : Source) : (requestSource n s).mqText = s.mqText := rfl
@[simp] theorem requestSource_mqLen (s : State) (n : Source) : (requestSource n s).mqLen = s.mqLen := rfl
@[simp] theorem requestSource_mqWidth (s : State) (n : Source) : (requestSource n s).mqWidth = s.mqWidth := rfl
@[simp] theorem requestSource_mqHeight (s : State) (n : Source) : (requestSource n s).mqHeight = s.mqHeight := rfl
@[simp] theorem requestSource_mqOX (s : State) (n : Source) : (requestSource n s).mqOX = s.mqOX := rfl
@[simp] theorem requestSource_mqOY (s : State) (n : Source) : (requestSource n s).mqOY = s.mqOY := rfl
@[simp] theorem requestSource_text (s : State) (n : Source) : (requestSource n s).text = s.text := rfl
@[simp] theorem requestSource_tick (s : State) (n : Source) : (requestSource n s).tick = s.tick := rfl
@[simp] theorem requestSource_flag0 (s : State) (n : Source) : (requestSource n s).flag0 = s.flag0 := rfl
@[simp] theorem requestSource_flag1 (s : State) (n : Source) : (requestSource n s).flag1 = s.flag1 := rfl
@[simp] theorem requestSource_ie (s : State) (n : Source) : (requestSource n s).ie = s.ie := rfl
@[simp] theorem requestSource_pend (s : State) (n : Source) : (requestSource n s).pend = putBit s.pend (sourceBit n) true := rfl
@[simp] theorem requestSource_ctx (s : State) (n : Source) : (requestSource n s).ctx = s.ctx := rfl
@[simp] theorem requestSource_cur (s : State) (n : Source) : (requestSource n s).cur = s.cur := rfl
@[simp] theorem requestSource_rowEn (s : State) (n : Source) : (requestSource n s).rowEn = s.rowEn := rfl
@[simp] theorem requestSource_rowAddr (s : State) (n : Source) : (requestSource n s).rowAddr = s.rowAddr := rfl
@[simp] theorem requestSource_out (s : State) (n : Source) : (requestSource n s).out = s.out := rfl
@[simp] theorem requestSource_faultCode (s : State) (n : Source) : (requestSource n s).faultCode = s.faultCode := rfl
@[simp] theorem requestSource_faultCmd (s : State) (n : Source) : (requestSource n s).faultCmd = s.faultCmd := rfl
@[simp] theorem requestSource_busBusy (s : State) (n : Source) : (requestSource n s).busBusy = s.busBusy := rfl
@[simp] theorem requestSource_env (s : State) (n : Source) : (requestSource n s).env = s.env := rfl
@[simp] theorem requestSource_hostVars (s : State) (n : Source) : (requestSource n s).hostVars = s.hostVars := rfl

/-! ## The host's write of an argument register -/

@[simp] theorem setArg_cfg (s : State) (r : ArgReg) (v : Half) : (setArg r v s).cfg = s.cfg := by
  cases r <;> rfl
@[simp] theorem setArg_result (s : State) (r : ArgReg) (v : Half) : (setArg r v s).result = s.result := by
  cases r <;> rfl
@[simp] theorem setArg_fb (s : State) (r : ArgReg) (v : Half) : (setArg r v s).fb = s.fb := by
  cases r <;> rfl
@[simp] theorem setArg_phase (s : State) (r : ArgReg) (v : Half) : (setArg r v s).phase = s.phase := by
  cases r <;> rfl
@[simp] theorem setArg_fontBase (s : State) (r : ArgReg) (v : Half) : (setArg r v s).fontBase = s.fontBase := by
  cases r <;> rfl
@[simp] theorem setArg_fontValid (s : State) (r : ArgReg) (v : Half) : (setArg r v s).fontValid = s.fontValid := by
  cases r <;> rfl
@[simp] theorem setArg_mqText (s : State) (r : ArgReg) (v : Half) : (setArg r v s).mqText = s.mqText := by
  cases r <;> rfl
@[simp] theorem setArg_mqLen (s : State) (r : ArgReg) (v : Half) : (setArg r v s).mqLen = s.mqLen := by
  cases r <;> rfl
@[simp] theorem setArg_mqWidth (s : State) (r : ArgReg) (v : Half) : (setArg r v s).mqWidth = s.mqWidth := by
  cases r <;> rfl
@[simp] theorem setArg_mqHeight (s : State) (r : ArgReg) (v : Half) : (setArg r v s).mqHeight = s.mqHeight := by
  cases r <;> rfl
@[simp] theorem setArg_mqOX (s : State) (r : ArgReg) (v : Half) : (setArg r v s).mqOX = s.mqOX := by
  cases r <;> rfl
@[simp] theorem setArg_mqOY (s : State) (r : ArgReg) (v : Half) : (setArg r v s).mqOY = s.mqOY := by
  cases r <;> rfl
@[simp] theorem setArg_text (s : State) (r : ArgReg) (v : Half) : (setArg r v s).text = s.text := by
  cases r <;> rfl
@[simp] theorem setArg_tick (s : State) (r : ArgReg) (v : Half) : (setArg r v s).tick = s.tick := by
  cases r <;> rfl
@[simp] theorem setArg_flag0 (s : State) (r : ArgReg) (v : Half) : (setArg r v s).flag0 = s.flag0 := by
  cases r <;> rfl
@[simp] theorem setArg_flag1 (s : State) (r : ArgReg) (v : Half) : (setArg r v s).flag1 = s.flag1 := by
  cases r <;> rfl
@[simp] theorem setArg_ie (s : State) (r : ArgReg) (v : Half) : (setArg r v s).ie = s.ie := by
  cases r <;> rfl
@[simp] theorem setArg_pend (s : State) (r : ArgReg) (v : Half) : (setArg r v s).pend = s.pend := by
  cases r <;> rfl
@[simp] theorem setArg_ctx (s : State) (r : ArgReg) (v : Half) : (setArg r v s).ctx = s.ctx := by
  cases r <;> rfl
@[simp] theorem setArg_cur (s : State) (r : ArgReg) (v : Half) : (setArg r v s).cur = s.cur := by
  cases r <;> rfl
@[simp] theorem setArg_rowEn (s : State) (r : ArgReg) (v : Half) : (setArg r v s).rowEn = s.rowEn := by
  cases r <;> rfl
@[simp] theorem setArg_rowAddr (s : State) (r : ArgReg) (v : Half) : (setArg r v s).rowAddr = s.rowAddr := by
  cases r <;> rfl
@[simp] theorem setArg_out (s : State) (r : ArgReg) (v : Half) : (setArg r v s).out = s.out := by
  cases r <;> rfl
@[simp] theorem setArg_faultCode (s : State) (r : ArgReg) (v : Half) : (setArg r v s).faultCode = s.faultCode := by
  cases r <;> rfl
@[simp] theorem setArg_faultCmd (s : State) (r : ArgReg) (v : Half) : (setArg r v s).faultCmd = s.faultCmd := by
  cases r <;> rfl
@[simp] theorem setArg_busBusy (s : State) (r : ArgReg) (v : Half) : (setArg r v s).busBusy = s.busBusy := by
  cases r <;> rfl
@[simp] theorem setArg_env (s : State) (r : ArgReg) (v : Half) : (setArg r v s).env = s.env := by
  cases r <;> rfl
@[simp] theorem setArg_hostVars (s : State) (r : ArgReg) (v : Half) : (setArg r v s).hostVars = s.hostVars := by
  cases r <;> rfl

/-! ## Setting a host variable -/

@[simp] theorem setHostVar_cfg (s : State) (x : Nat) (v : Word) : (setHostVar x v s).cfg = s.cfg := rfl
@[simp] theorem setHostVar_a0 (s : State) (x : Nat) (v : Word) : (setHostVar x v s).a0 = s.a0 := rfl
@[simp] theorem setHostVar_a1 (s : State) (x : Nat) (v : Word) : (setHostVar x v s).a1 = s.a1 := rfl
@[simp] theorem setHostVar_a2 (s : State) (x : Nat) (v : Word) : (setHostVar x v s).a2 = s.a2 := rfl
@[simp] theorem setHostVar_a3 (s : State) (x : Nat) (v : Word) : (setHostVar x v s).a3 = s.a3 := rfl
@[simp] theorem setHostVar_result (s : State) (x : Nat) (v : Word) : (setHostVar x v s).result = s.result := rfl
@[simp] theorem setHostVar_fb (s : State) (x : Nat) (v : Word) : (setHostVar x v s).fb = s.fb := rfl
@[simp] theorem setHostVar_phase (s : State) (x : Nat) (v : Word) : (setHostVar x v s).phase = s.phase := rfl
@[simp] theorem setHostVar_fontBase (s : State) (x : Nat) (v : Word) : (setHostVar x v s).fontBase = s.fontBase := rfl
@[simp] theorem setHostVar_fontValid (s : State) (x : Nat) (v : Word) : (setHostVar x v s).fontValid = s.fontValid := rfl
@[simp] theorem setHostVar_mqText (s : State) (x : Nat) (v : Word) : (setHostVar x v s).mqText = s.mqText := rfl
@[simp] theorem setHostVar_mqLen (s : State) (x : Nat) (v : Word) : (setHostVar x v s).mqLen = s.mqLen := rfl
@[simp] theorem setHostVar_mqWidth (s : State) (x : Nat) (v : Word) : (setHostVar x v s).mqWidth = s.mqWidth := rfl
@[simp] theorem setHostVar_mqHeight (s : State) (x : Nat) (v : Word) : (setHostVar x v s).mqHeight = s.mqHeight := rfl
@[simp] theorem setHostVar_mqOX (s : State) (x : Nat) (v : Word) : (setHostVar x v s).mqOX = s.mqOX := rfl
@[simp] theorem setHostVar_mqOY (s : State) (x : Nat) (v : Word) : (setHostVar x v s).mqOY = s.mqOY := rfl
@[simp] theorem setHostVar_text (s : State) (x : Nat) (v : Word) : (setHostVar x v s).text = s.text := rfl
@[simp] theorem setHostVar_tick (s : State) (x : Nat) (v : Word) : (setHostVar x v s).tick = s.tick := rfl
@[simp] theorem setHostVar_flag0 (s : State) (x : Nat) (v : Word) : (setHostVar x v s).flag0 = s.flag0 := rfl
@[simp] theorem setHostVar_flag1 (s : State) (x : Nat) (v : Word) : (setHostVar x v s).flag1 = s.flag1 := rfl
@[simp] theorem setHostVar_ie (s : State) (x : Nat) (v : Word) : (setHostVar x v s).ie = s.ie := rfl
@[simp] theorem setHostVar_pend (s : State) (x : Nat) (v : Word) : (setHostVar x v s).pend = s.pend := rfl
@[simp] theorem setHostVar_ctx (s : State) (x : Nat) (v : Word) : (setHostVar x v s).ctx = s.ctx := rfl
@[simp] theorem setHostVar_cur (s : State) (x : Nat) (v : Word) : (setHostVar x v s).cur = s.cur := rfl
@[simp] theorem setHostVar_rowEn (s : State) (x : Nat) (v : Word) : (setHostVar x v s).rowEn = s.rowEn := rfl
@[simp] theorem setHostVar_rowAddr (s : State) (x : Nat) (v : Word) : (setHostVar x v s).rowAddr = s.rowAddr := rfl
@[simp] theorem setHostVar_out (s : State) (x : Nat) (v : Word) : (setHostVar x v s).out = s.out := rfl
@[simp] theorem setHostVar_faultCode (s : State) (x : Nat) (v : Word) : (setHostVar x v s).faultCode = s.faultCode := rfl
@[simp] theorem setHostVar_faultCmd (s : State) (x : Nat) (v : Word) : (setHostVar x v s).faultCmd = s.faultCmd := rfl
@[simp] theorem setHostVar_busBusy (s : State) (x : Nat) (v : Word) : (setHostVar x v s).busBusy = s.busBusy := rfl
@[simp] theorem setHostVar_env (s : State) (x : Nat) (v : Word) : (setHostVar x v s).env = s.env := rfl
@[simp] theorem setHostVar_hostVars (s : State) (x : Nat) (v : Word) : (setHostVar x v s).hostVars = writeVar s.hostVars x v := rfl

/-! ## A host access -/

@[simp] theorem hostAccess_cfg (s : State) (a : HostAccess) : (hostAccess a s).cfg = s.cfg := by
  cases a <;> simp [hostAccess]
@[simp] theorem hostAccess_result (s : State) (a : HostAccess) : (hostAccess a s).result = s.result := by
  cases a <;> simp [hostAccess]
@[simp] theorem hostAccess_fb (s : State) (a : HostAccess) : (hostAccess a s).fb = s.fb := by
  cases a <;> simp [hostAccess]
@[simp] theorem hostAccess_phase (s : State) (a : HostAccess) : (hostAccess a s).phase = s.phase := by
  cases a <;> simp [hostAccess]
@[simp] theorem hostAccess_fontBase (s : State) (a : HostAccess) : (hostAccess a s).fontBase = s.fontBase := by
  cases a <;> simp [hostAccess]
@[simp] theorem hostAccess_fontValid (s : State) (a : HostAccess) : (hostAccess a s).fontValid = s.fontValid := by
  cases a <;> simp [hostAccess]
@[simp] theorem hostAccess_mqText (s : State) (a : HostAccess) : (hostAccess a s).mqText = s.mqText := by
  cases a <;> simp [hostAccess]
@[simp] theorem hostAccess_mqLen (s : State) (a : HostAccess) : (hostAccess a s).mqLen = s.mqLen := by
  cases a <;> simp [hostAccess]
@[simp] theorem hostAccess_mqWidth (s : State) (a : HostAccess) : (hostAccess a s).mqWidth = s.mqWidth := by
  cases a <;> simp [hostAccess]
@[simp] theorem hostAccess_mqHeight (s : State) (a : HostAccess) : (hostAccess a s).mqHeight = s.mqHeight := by
  cases a <;> simp [hostAccess]
@[simp] theorem hostAccess_mqOX (s : State) (a : HostAccess) : (hostAccess a s).mqOX = s.mqOX := by
  cases a <;> simp [hostAccess]
@[simp] theorem hostAccess_mqOY (s : State) (a : HostAccess) : (hostAccess a s).mqOY = s.mqOY := by
  cases a <;> simp [hostAccess]
@[simp] theorem hostAccess_text (s : State) (a : HostAccess) : (hostAccess a s).text = s.text := by
  cases a <;> simp [hostAccess]
@[simp] theorem hostAccess_tick (s : State) (a : HostAccess) : (hostAccess a s).tick = s.tick := by
  cases a <;> simp [hostAccess]
@[simp] theorem hostAccess_flag0 (s : State) (a : HostAccess) : (hostAccess a s).flag0 = s.flag0 := by
  cases a <;> simp [hostAccess]
@[simp] theorem hostAccess_flag1 (s : State) (a : HostAccess) : (hostAccess a s).flag1 = s.flag1 := by
  cases a <;> simp [hostAccess]
@[simp] theorem hostAccess_ie (s : State) (a : HostAccess) : (hostAccess a s).ie = s.ie := by
  cases a <;> simp [hostAccess]
@[simp] theorem hostAccess_pend (s : State) (a : HostAccess) : (hostAccess a s).pend = s.pend := by
  cases a <;> simp [hostAccess]
@[simp] theorem hostAccess_ctx (s : State) (a : HostAccess) : (hostAccess a s).ctx = s.ctx := by
  cases a <;> simp [hostAccess]
@[simp] theorem hostAccess_cur (s : State) (a : HostAccess) : (hostAccess a s).cur = s.cur := by
  cases a <;> simp [hostAccess]
@[simp] theorem hostAccess_rowEn (s : State) (a : HostAccess) : (hostAccess a s).rowEn = s.rowEn := by
  cases a <;> simp [hostAccess]
@[simp] theorem hostAccess_rowAddr (s : State) (a : HostAccess) : (hostAccess a s).rowAddr = s.rowAddr := by
  cases a <;> simp [hostAccess]
@[simp] theorem hostAccess_out (s : State) (a : HostAccess) : (hostAccess a s).out = s.out := by
  cases a <;> simp [hostAccess]
@[simp] theorem hostAccess_faultCode (s : State) (a : HostAccess) : (hostAccess a s).faultCode = s.faultCode := by
  cases a <;> simp [hostAccess]
@[simp] theorem hostAccess_faultCmd (s : State) (a : HostAccess) : (hostAccess a s).faultCmd = s.faultCmd := by
  cases a <;> simp [hostAccess]
@[simp] theorem hostAccess_busBusy (s : State) (a : HostAccess) : (hostAccess a s).busBusy = s.busBusy := by
  cases a <;> simp [hostAccess]
@[simp] theorem hostAccess_env (s : State) (a : HostAccess) : (hostAccess a s).env = s.env := by
  cases a <;> simp [hostAccess]

/-! ## Recording a fault -/

@[simp] theorem raiseFault_cfg (s : State) (k : FaultKind) (w : Word) : (raiseFault k w s).cfg = s.cfg := by
  unfold raiseFault
  split <;> rfl
@[simp] theorem raiseFault_a0 (s : State) (k : FaultKind) (w : Word) : (raiseFault k w s).a0 = s.a0 := by
  unfold raiseFault
  split <;> rfl
@[simp] theorem raiseFault_a1 (s : State) (k : FaultKind) (w : Word) : (raiseFault k w s).a1 = s.a1 := by
  unfold raiseFault
  split <;> rfl
@[simp] theorem raiseFault_a2 (s : State) (k : FaultKind) (w : Word) : (raiseFault k w s).a2 = s.a2 := by
  unfold raiseFault
  split <;> rfl
@[simp] theorem raiseFault_a3 (s : State) (k : FaultKind) (w : Word) : (raiseFault k w s).a3 = s.a3 := by
  unfold raiseFault
  split <;> rfl
@[simp] theorem raiseFault_result (s : State) (k : FaultKind) (w : Word) : (raiseFault k w s).result = s.result := by
  unfold raiseFault
  split <;> rfl
@[simp] theorem raiseFault_fb (s : State) (k : FaultKind) (w : Word) : (raiseFault k w s).fb = s.fb := by
  unfold raiseFault
  split <;> rfl
@[simp] theorem raiseFault_phase (s : State) (k : FaultKind) (w : Word) : (raiseFault k w s).phase = s.phase := by
  unfold raiseFault
  split <;> rfl
@[simp] theorem raiseFault_fontBase (s : State) (k : FaultKind) (w : Word) : (raiseFault k w s).fontBase = s.fontBase := by
  unfold raiseFault
  split <;> rfl
@[simp] theorem raiseFault_fontValid (s : State) (k : FaultKind) (w : Word) : (raiseFault k w s).fontValid = s.fontValid := by
  unfold raiseFault
  split <;> rfl
@[simp] theorem raiseFault_mqText (s : State) (k : FaultKind) (w : Word) : (raiseFault k w s).mqText = s.mqText := by
  unfold raiseFault
  split <;> rfl
@[simp] theorem raiseFault_mqLen (s : State) (k : FaultKind) (w : Word) : (raiseFault k w s).mqLen = s.mqLen := by
  unfold raiseFault
  split <;> rfl
@[simp] theorem raiseFault_mqWidth (s : State) (k : FaultKind) (w : Word) : (raiseFault k w s).mqWidth = s.mqWidth := by
  unfold raiseFault
  split <;> rfl
@[simp] theorem raiseFault_mqHeight (s : State) (k : FaultKind) (w : Word) : (raiseFault k w s).mqHeight = s.mqHeight := by
  unfold raiseFault
  split <;> rfl
@[simp] theorem raiseFault_mqOX (s : State) (k : FaultKind) (w : Word) : (raiseFault k w s).mqOX = s.mqOX := by
  unfold raiseFault
  split <;> rfl
@[simp] theorem raiseFault_mqOY (s : State) (k : FaultKind) (w : Word) : (raiseFault k w s).mqOY = s.mqOY := by
  unfold raiseFault
  split <;> rfl
@[simp] theorem raiseFault_text (s : State) (k : FaultKind) (w : Word) : (raiseFault k w s).text = s.text := by
  unfold raiseFault
  split <;> rfl
@[simp] theorem raiseFault_tick (s : State) (k : FaultKind) (w : Word) : (raiseFault k w s).tick = s.tick := by
  unfold raiseFault
  split <;> rfl
@[simp] theorem raiseFault_flag0 (s : State) (k : FaultKind) (w : Word) : (raiseFault k w s).flag0 = s.flag0 := by
  unfold raiseFault
  split <;> rfl
@[simp] theorem raiseFault_flag1 (s : State) (k : FaultKind) (w : Word) : (raiseFault k w s).flag1 = s.flag1 := by
  unfold raiseFault
  split <;> rfl
@[simp] theorem raiseFault_ie (s : State) (k : FaultKind) (w : Word) : (raiseFault k w s).ie = s.ie := by
  unfold raiseFault
  split <;> rfl
@[simp] theorem raiseFault_pend (s : State) (k : FaultKind) (w : Word) : (raiseFault k w s).pend = s.pend := by
  unfold raiseFault
  split <;> rfl
@[simp] theorem raiseFault_ctx (s : State) (k : FaultKind) (w : Word) : (raiseFault k w s).ctx = s.ctx := by
  unfold raiseFault
  split <;> rfl
@[simp] theorem raiseFault_rowEn (s : State) (k : FaultKind) (w : Word) : (raiseFault k w s).rowEn = s.rowEn := by
  unfold raiseFault
  split <;> rfl
@[simp] theorem raiseFault_rowAddr (s : State) (k : FaultKind) (w : Word) : (raiseFault k w s).rowAddr = s.rowAddr := by
  unfold raiseFault
  split <;> rfl
@[simp] theorem raiseFault_out (s : State) (k : FaultKind) (w : Word) : (raiseFault k w s).out = s.out := by
  unfold raiseFault
  split <;> rfl
@[simp] theorem raiseFault_busBusy (s : State) (k : FaultKind) (w : Word) : (raiseFault k w s).busBusy = s.busBusy := by
  unfold raiseFault
  split <;> rfl
@[simp] theorem raiseFault_env (s : State) (k : FaultKind) (w : Word) : (raiseFault k w s).env = s.env := by
  unfold raiseFault
  split <;> rfl
@[simp] theorem raiseFault_hostVars (s : State) (k : FaultKind) (w : Word) : (raiseFault k w s).hostVars = s.hostVars := by
  unfold raiseFault
  split <;> rfl

/-! ## The return from a handler -/

@[simp] theorem returnFromHandler_cfg (s : State) : (returnFromHandler s).cfg = s.cfg := rfl
@[simp] theorem returnFromHandler_a0 (s : State) : (returnFromHandler s).a0 = s.a0 := rfl
@[simp] theorem returnFromHandler_a1 (s : State) : (returnFromHandler s).a1 = s.a1 := rfl
@[simp] theorem returnFromHandler_a2 (s : State) : (returnFromHandler s).a2 = s.a2 := rfl
@[simp] theorem returnFromHandler_a3 (s : State) : (returnFromHandler s).a3 = s.a3 := rfl
@[simp] theorem returnFromHandler_result (s : State) : (returnFromHandler s).result = s.result := rfl
@[simp] theorem returnFromHandler_fb (s : State) : (returnFromHandler s).fb = s.fb := rfl
@[simp] theorem returnFromHandler_phase (s : State) : (returnFromHandler s).phase = s.phase := rfl
@[simp] theorem returnFromHandler_fontBase (s : State) : (returnFromHandler s).fontBase = s.fontBase := rfl
@[simp] theorem returnFromHandler_fontValid (s : State) : (returnFromHandler s).fontValid = s.fontValid := rfl
@[simp] theorem returnFromHandler_mqText (s : State) : (returnFromHandler s).mqText = s.mqText := rfl
@[simp] theorem returnFromHandler_mqLen (s : State) : (returnFromHandler s).mqLen = s.mqLen := rfl
@[simp] theorem returnFromHandler_mqWidth (s : State) : (returnFromHandler s).mqWidth = s.mqWidth := rfl
@[simp] theorem returnFromHandler_mqHeight (s : State) : (returnFromHandler s).mqHeight = s.mqHeight := rfl
@[simp] theorem returnFromHandler_mqOX (s : State) : (returnFromHandler s).mqOX = s.mqOX := rfl
@[simp] theorem returnFromHandler_mqOY (s : State) : (returnFromHandler s).mqOY = s.mqOY := rfl
@[simp] theorem returnFromHandler_text (s : State) : (returnFromHandler s).text = s.text := rfl
@[simp] theorem returnFromHandler_tick (s : State) : (returnFromHandler s).tick = s.tick := rfl
@[simp] theorem returnFromHandler_flag0 (s : State) : (returnFromHandler s).flag0 = s.flag0 := rfl
@[simp] theorem returnFromHandler_flag1 (s : State) : (returnFromHandler s).flag1 = s.flag1 := rfl
@[simp] theorem returnFromHandler_ie (s : State) : (returnFromHandler s).ie = s.ie := rfl
@[simp] theorem returnFromHandler_pend (s : State) : (returnFromHandler s).pend = s.pend := rfl
@[simp] theorem returnFromHandler_ctx (s : State) : (returnFromHandler s).ctx = .main := rfl
@[simp] theorem returnFromHandler_cur (s : State) : (returnFromHandler s).cur = s.cur := rfl
@[simp] theorem returnFromHandler_rowEn (s : State) : (returnFromHandler s).rowEn = s.rowEn := rfl
@[simp] theorem returnFromHandler_rowAddr (s : State) : (returnFromHandler s).rowAddr = s.rowAddr := rfl
@[simp] theorem returnFromHandler_out (s : State) : (returnFromHandler s).out = s.out := rfl
@[simp] theorem returnFromHandler_faultCode (s : State) : (returnFromHandler s).faultCode = s.faultCode := rfl
@[simp] theorem returnFromHandler_faultCmd (s : State) : (returnFromHandler s).faultCmd = s.faultCmd := rfl
@[simp] theorem returnFromHandler_busBusy (s : State) : (returnFromHandler s).busBusy = s.busBusy := rfl
@[simp] theorem returnFromHandler_env (s : State) : (returnFromHandler s).env = s.env := rfl
@[simp] theorem returnFromHandler_hostVars (s : State) : (returnFromHandler s).hostVars = s.hostVars := rfl

/-! ## The tick increment -/

@[simp] theorem incTick_cfg (s : State) : (incTick s).cfg = s.cfg := rfl
@[simp] theorem incTick_a0 (s : State) : (incTick s).a0 = s.a0 := rfl
@[simp] theorem incTick_a1 (s : State) : (incTick s).a1 = s.a1 := rfl
@[simp] theorem incTick_a2 (s : State) : (incTick s).a2 = s.a2 := rfl
@[simp] theorem incTick_a3 (s : State) : (incTick s).a3 = s.a3 := rfl
@[simp] theorem incTick_result (s : State) : (incTick s).result = s.result := rfl
@[simp] theorem incTick_fb (s : State) : (incTick s).fb = s.fb := rfl
@[simp] theorem incTick_phase (s : State) : (incTick s).phase = s.phase := rfl
@[simp] theorem incTick_fontBase (s : State) : (incTick s).fontBase = s.fontBase := rfl
@[simp] theorem incTick_fontValid (s : State) : (incTick s).fontValid = s.fontValid := rfl
@[simp] theorem incTick_mqText (s : State) : (incTick s).mqText = s.mqText := rfl
@[simp] theorem incTick_mqLen (s : State) : (incTick s).mqLen = s.mqLen := rfl
@[simp] theorem incTick_mqWidth (s : State) : (incTick s).mqWidth = s.mqWidth := rfl
@[simp] theorem incTick_mqHeight (s : State) : (incTick s).mqHeight = s.mqHeight := rfl
@[simp] theorem incTick_mqOX (s : State) : (incTick s).mqOX = s.mqOX := rfl
@[simp] theorem incTick_mqOY (s : State) : (incTick s).mqOY = s.mqOY := rfl
@[simp] theorem incTick_text (s : State) : (incTick s).text = s.text := rfl
@[simp] theorem incTick_tick (s : State) : (incTick s).tick = BitVec.ofNat 32 ((s.tick.toNat + s.cfg.tickInc) % 2 ^ s.cfg.tickWidth.bits) := rfl
@[simp] theorem incTick_flag0 (s : State) : (incTick s).flag0 = s.flag0 := rfl
@[simp] theorem incTick_flag1 (s : State) : (incTick s).flag1 = s.flag1 := rfl
@[simp] theorem incTick_ie (s : State) : (incTick s).ie = s.ie := rfl
@[simp] theorem incTick_pend (s : State) : (incTick s).pend = s.pend := rfl
@[simp] theorem incTick_ctx (s : State) : (incTick s).ctx = s.ctx := rfl
@[simp] theorem incTick_cur (s : State) : (incTick s).cur = s.cur := rfl
@[simp] theorem incTick_rowEn (s : State) : (incTick s).rowEn = s.rowEn := rfl
@[simp] theorem incTick_rowAddr (s : State) : (incTick s).rowAddr = s.rowAddr := rfl
@[simp] theorem incTick_out (s : State) : (incTick s).out = s.out := rfl
@[simp] theorem incTick_faultCode (s : State) : (incTick s).faultCode = s.faultCode := rfl
@[simp] theorem incTick_faultCmd (s : State) : (incTick s).faultCmd = s.faultCmd := rfl
@[simp] theorem incTick_busBusy (s : State) : (incTick s).busBusy = s.busBusy := rfl
@[simp] theorem incTick_env (s : State) : (incTick s).env = s.env := rfl
@[simp] theorem incTick_hostVars (s : State) : (incTick s).hostVars = s.hostVars := rfl

/-! ## One scan -/

@[simp] theorem scan_cfg (s : State) : (scan s).cfg = s.cfg := rfl
@[simp] theorem scan_a0 (s : State) : (scan s).a0 = s.a0 := rfl
@[simp] theorem scan_a1 (s : State) : (scan s).a1 = s.a1 := rfl
@[simp] theorem scan_a2 (s : State) : (scan s).a2 = s.a2 := rfl
@[simp] theorem scan_a3 (s : State) : (scan s).a3 = s.a3 := rfl
@[simp] theorem scan_result (s : State) : (scan s).result = s.result := rfl
@[simp] theorem scan_fb (s : State) : (scan s).fb = s.fb := rfl
@[simp] theorem scan_phase (s : State) : (scan s).phase = s.phase + 1#2 := rfl
@[simp] theorem scan_fontBase (s : State) : (scan s).fontBase = s.fontBase := rfl
@[simp] theorem scan_fontValid (s : State) : (scan s).fontValid = s.fontValid := rfl
@[simp] theorem scan_mqText (s : State) : (scan s).mqText = s.mqText := rfl
@[simp] theorem scan_mqLen (s : State) : (scan s).mqLen = s.mqLen := rfl
@[simp] theorem scan_mqWidth (s : State) : (scan s).mqWidth = s.mqWidth := rfl
@[simp] theorem scan_mqHeight (s : State) : (scan s).mqHeight = s.mqHeight := rfl
@[simp] theorem scan_mqOX (s : State) : (scan s).mqOX = s.mqOX := rfl
@[simp] theorem scan_mqOY (s : State) : (scan s).mqOY = s.mqOY := rfl
@[simp] theorem scan_text (s : State) : (scan s).text = s.text := rfl
@[simp] theorem scan_tick (s : State) : (scan s).tick = s.tick := rfl
@[simp] theorem scan_flag0 (s : State) : (scan s).flag0 = s.flag0 := rfl
@[simp] theorem scan_flag1 (s : State) : (scan s).flag1 = s.flag1 := rfl
@[simp] theorem scan_ie (s : State) : (scan s).ie = s.ie := rfl
@[simp] theorem scan_pend (s : State) : (scan s).pend = s.pend := rfl
@[simp] theorem scan_ctx (s : State) : (scan s).ctx = s.ctx := rfl
@[simp] theorem scan_cur (s : State) : (scan s).cur = s.cur := rfl
@[simp] theorem scan_rowEn (s : State) : (scan s).rowEn = true := rfl
@[simp] theorem scan_rowAddr (s : State) : (scan s).rowAddr = s.phase := rfl
@[simp] theorem scan_out (s : State) : (scan s).out = s.out ++ scanBytes s ++ [.blank, .latch, .rowSel s.phase, .unblank] := rfl
@[simp] theorem scan_faultCode (s : State) : (scan s).faultCode = s.faultCode := rfl
@[simp] theorem scan_faultCmd (s : State) : (scan s).faultCmd = s.faultCmd := rfl
@[simp] theorem scan_busBusy (s : State) : (scan s).busBusy = s.busBusy := rfl
@[simp] theorem scan_env (s : State) : (scan s).env = s.env := rfl
@[simp] theorem scan_hostVars (s : State) : (scan s).hostVars = s.hostVars := rfl

/-! ## The timer handler -/

@[simp] theorem timerHandler_cfg (s : State) : (timerHandler s).cfg = s.cfg := by
  unfold timerHandler
  split <;> rfl
@[simp] theorem timerHandler_a0 (s : State) : (timerHandler s).a0 = s.a0 := by
  unfold timerHandler
  split <;> rfl
@[simp] theorem timerHandler_a1 (s : State) : (timerHandler s).a1 = s.a1 := by
  unfold timerHandler
  split <;> rfl
@[simp] theorem timerHandler_a2 (s : State) : (timerHandler s).a2 = s.a2 := by
  unfold timerHandler
  split <;> rfl
@[simp] theorem timerHandler_a3 (s : State) : (timerHandler s).a3 = s.a3 := by
  unfold timerHandler
  split <;> rfl
@[simp] theorem timerHandler_result (s : State) : (timerHandler s).result = s.result := by
  unfold timerHandler
  split <;> rfl
@[simp] theorem timerHandler_fb (s : State) : (timerHandler s).fb = s.fb := by
  unfold timerHandler
  split <;> rfl
@[simp] theorem timerHandler_fontBase (s : State) : (timerHandler s).fontBase = s.fontBase := by
  unfold timerHandler
  split <;> rfl
@[simp] theorem timerHandler_fontValid (s : State) : (timerHandler s).fontValid = s.fontValid := by
  unfold timerHandler
  split <;> rfl
@[simp] theorem timerHandler_mqText (s : State) : (timerHandler s).mqText = s.mqText := by
  unfold timerHandler
  split <;> rfl
@[simp] theorem timerHandler_mqLen (s : State) : (timerHandler s).mqLen = s.mqLen := by
  unfold timerHandler
  split <;> rfl
@[simp] theorem timerHandler_mqWidth (s : State) : (timerHandler s).mqWidth = s.mqWidth := by
  unfold timerHandler
  split <;> rfl
@[simp] theorem timerHandler_mqHeight (s : State) : (timerHandler s).mqHeight = s.mqHeight := by
  unfold timerHandler
  split <;> rfl
@[simp] theorem timerHandler_mqOX (s : State) : (timerHandler s).mqOX = s.mqOX := by
  unfold timerHandler
  split <;> rfl
@[simp] theorem timerHandler_mqOY (s : State) : (timerHandler s).mqOY = s.mqOY := by
  unfold timerHandler
  split <;> rfl
@[simp] theorem timerHandler_text (s : State) : (timerHandler s).text = s.text := by
  unfold timerHandler
  split <;> rfl
@[simp] theorem timerHandler_flag0 (s : State) : (timerHandler s).flag0 = s.flag0 := by
  unfold timerHandler
  split <;> rfl
@[simp] theorem timerHandler_flag1 (s : State) : (timerHandler s).flag1 = s.flag1 := by
  unfold timerHandler
  split <;> rfl
@[simp] theorem timerHandler_ie (s : State) : (timerHandler s).ie = s.ie := by
  unfold timerHandler
  split <;> rfl
@[simp] theorem timerHandler_pend (s : State) : (timerHandler s).pend = s.pend := by
  unfold timerHandler
  split <;> rfl
@[simp] theorem timerHandler_ctx (s : State) : (timerHandler s).ctx = s.ctx := by
  unfold timerHandler
  split <;> rfl
@[simp] theorem timerHandler_cur (s : State) : (timerHandler s).cur = s.cur := by
  unfold timerHandler
  split <;> rfl
@[simp] theorem timerHandler_faultCode (s : State) : (timerHandler s).faultCode = s.faultCode := by
  unfold timerHandler
  split <;> rfl
@[simp] theorem timerHandler_faultCmd (s : State) : (timerHandler s).faultCmd = s.faultCmd := by
  unfold timerHandler
  split <;> rfl
@[simp] theorem timerHandler_busBusy (s : State) : (timerHandler s).busBusy = s.busBusy := by
  unfold timerHandler
  split <;> rfl
@[simp] theorem timerHandler_env (s : State) : (timerHandler s).env = s.env := by
  unfold timerHandler
  split <;> rfl
@[simp] theorem timerHandler_hostVars (s : State) : (timerHandler s).hostVars = s.hostVars := by
  unfold timerHandler
  split <;> rfl

/-! ## Handler entry, run and return -/

@[simp] theorem enter_cfg (s : State) (n : Source) : (enter n s).cfg = s.cfg := by
  cases n <;> simp [enter, enterHandler, handlerBody, edgeHandler]
@[simp] theorem enter_a0 (s : State) (n : Source) : (enter n s).a0 = s.a0 := by
  cases n <;> simp [enter, enterHandler, handlerBody, edgeHandler]
@[simp] theorem enter_a1 (s : State) (n : Source) : (enter n s).a1 = s.a1 := by
  cases n <;> simp [enter, enterHandler, handlerBody, edgeHandler]
@[simp] theorem enter_a2 (s : State) (n : Source) : (enter n s).a2 = s.a2 := by
  cases n <;> simp [enter, enterHandler, handlerBody, edgeHandler]
@[simp] theorem enter_a3 (s : State) (n : Source) : (enter n s).a3 = s.a3 := by
  cases n <;> simp [enter, enterHandler, handlerBody, edgeHandler]
@[simp] theorem enter_result (s : State) (n : Source) : (enter n s).result = s.result := by
  cases n <;> simp [enter, enterHandler, handlerBody, edgeHandler]
@[simp] theorem enter_fb (s : State) (n : Source) : (enter n s).fb = s.fb := by
  cases n <;> simp [enter, enterHandler, handlerBody, edgeHandler]
@[simp] theorem enter_fontBase (s : State) (n : Source) : (enter n s).fontBase = s.fontBase := by
  cases n <;> simp [enter, enterHandler, handlerBody, edgeHandler]
@[simp] theorem enter_fontValid (s : State) (n : Source) : (enter n s).fontValid = s.fontValid := by
  cases n <;> simp [enter, enterHandler, handlerBody, edgeHandler]
@[simp] theorem enter_mqText (s : State) (n : Source) : (enter n s).mqText = s.mqText := by
  cases n <;> simp [enter, enterHandler, handlerBody, edgeHandler]
@[simp] theorem enter_mqLen (s : State) (n : Source) : (enter n s).mqLen = s.mqLen := by
  cases n <;> simp [enter, enterHandler, handlerBody, edgeHandler]
@[simp] theorem enter_mqWidth (s : State) (n : Source) : (enter n s).mqWidth = s.mqWidth := by
  cases n <;> simp [enter, enterHandler, handlerBody, edgeHandler]
@[simp] theorem enter_mqHeight (s : State) (n : Source) : (enter n s).mqHeight = s.mqHeight := by
  cases n <;> simp [enter, enterHandler, handlerBody, edgeHandler]
@[simp] theorem enter_mqOX (s : State) (n : Source) : (enter n s).mqOX = s.mqOX := by
  cases n <;> simp [enter, enterHandler, handlerBody, edgeHandler]
@[simp] theorem enter_mqOY (s : State) (n : Source) : (enter n s).mqOY = s.mqOY := by
  cases n <;> simp [enter, enterHandler, handlerBody, edgeHandler]
@[simp] theorem enter_text (s : State) (n : Source) : (enter n s).text = s.text := by
  cases n <;> simp [enter, enterHandler, handlerBody, edgeHandler]
@[simp] theorem enter_ie (s : State) (n : Source) : (enter n s).ie = s.ie := by
  cases n <;> simp [enter, enterHandler, handlerBody, edgeHandler]
@[simp] theorem enter_cur (s : State) (n : Source) : (enter n s).cur = s.cur := by
  cases n <;> simp [enter, enterHandler, handlerBody, edgeHandler]
@[simp] theorem enter_faultCode (s : State) (n : Source) : (enter n s).faultCode = s.faultCode := by
  cases n <;> simp [enter, enterHandler, handlerBody, edgeHandler]
@[simp] theorem enter_faultCmd (s : State) (n : Source) : (enter n s).faultCmd = s.faultCmd := by
  cases n <;> simp [enter, enterHandler, handlerBody, edgeHandler]
@[simp] theorem enter_busBusy (s : State) (n : Source) : (enter n s).busBusy = s.busBusy := by
  cases n <;> simp [enter, enterHandler, handlerBody, edgeHandler]
@[simp] theorem enter_env (s : State) (n : Source) : (enter n s).env = s.env := by
  cases n <;> simp [enter, enterHandler, handlerBody, edgeHandler]
@[simp] theorem enter_hostVars (s : State) (n : Source) : (enter n s).hostVars = s.hostVars := by
  cases n <;> simp [enter, enterHandler, handlerBody, edgeHandler]

/-! ## The flags and the enables -/

@[simp] theorem raiseFault_cur (s : State) (k : FaultKind) (w : Word) : (raiseFault k w s).cur = [] := by
  unfold raiseFault
  split <;> rfl

@[simp] theorem enter_ctx (s : State) (n : Source) : (enter n s).ctx = .main := rfl

theorem enter_pend (s : State) (n : Source) : (enter n s).pend = putBit s.pend (sourceBit n) false := by
  cases n <;> simp [enter, enterHandler, handlerBody, edgeHandler]

@[simp] theorem readFlag_writeFlag_same (s : State) (k : Fin 2) (v : Byte) : readFlag (writeFlag k v s) k = v := by
  unfold readFlag writeFlag
  split <;> rfl

@[simp] theorem readFlag_writeFlag_other (s : State) {k l : Fin 2} (v : Byte) (h : k ≠ l) :
    readFlag (writeFlag k v s) l = readFlag s l := by
  unfold readFlag writeFlag
  by_cases hl : l = 0 <;> by_cases hk : k = 0 <;> simp [hl, hk]
  · exact absurd (hk.trans hl.symm) h
  · omega

@[simp] theorem argBits_setArg_same (s : State) (r : ArgReg) (v : Half) : argBits (setArg r v s) r = v := by
  cases r <;> rfl

@[simp] theorem argBits_setArg_other (s : State) {r q : ArgReg} (v : Half) (h : r ≠ q) :
    argBits (setArg r v s) q = argBits s q := by
  cases r <;> cases q <;> first | rfl | exact absurd rfl h

/-! ## The host's variables -/

@[simp] theorem readVar_writeVar_same (x : Nat) (v : Word) : ∀ vs : List (Nat × Word), readVar (writeVar vs x v) x = v
  | [] => by simp [writeVar, readVar]
  | (y, w) :: vs => by
    simp only [writeVar]
    split
    · simp [readVar]
    · split
      · simp [readVar]
      · rename_i h
        simp [readVar, Ne.symm h, readVar_writeVar_same x v vs]

@[simp] theorem readVar_writeVar_other {x y : Nat} (v : Word) (h : x ≠ y) :
    ∀ vs : List (Nat × Word), readVar (writeVar vs x v) y = readVar vs y
  | [] => by simp [writeVar, readVar, h]
  | (z, w) :: vs => by
    simp only [writeVar]
    split
    · simp [readVar, h]
    · split
      · rename_i hz
        subst hz
        simp [readVar, h]
      · simp [readVar, readVar_writeVar_other v h vs]

@[simp] theorem hostVar_setHostVar_same (s : State) (x : Nat) (v : Word) : hostVar (setHostVar x v s) x = v :=
  readVar_writeVar_same x v s.hostVars

@[simp] theorem hostVar_setHostVar_other (s : State) {x y : Nat} (v : Word) (h : x ≠ y) :
    hostVar (setHostVar x v s) y = hostVar s y :=
  readVar_writeVar_other v h s.hostVars

/-! ## The fault record as the host reads it -/

@[simp] theorem faultValue_code (s : State) : faultValue s .code = s.faultCode.setWidth 32 := rfl
@[simp] theorem faultValue_cmd (s : State) : faultValue s .cmd = s.faultCmd := rfl

end Sys2Proof.Machine
end

