-- ==== Sys2Proof/Laws/Ops.lean ====
section
/-! SUPPORT. One lemma per shared operation that says all it can do: pixel addresses, micro-operations, issue, faults. -/

namespace Sys2Proof.Machine

/-! ## Pixel addresses -/

/-- The grid holds the pixel exactly when it has an address, and the address is the one R63 computes. -/
theorem pixelAddr_eq_some {c : Config} {x y : Int} {i : Nat} {m : Byte} :
    pixelAddr c x y = some (i, m) ↔
      (0 ≤ x ∧ 0 ≤ y ∧ x < c.gridWidth ∧ y < c.gridHeight) ∧
      i = (x.toNat % 32 + (x.toNat / 32 + c.wp * (y.toNat / 16)) * 32) / 8 + y.toNat % 16 * c.rowBytes ∧
      m = pixelMask ((x.toNat % 32 + (x.toNat / 32 + c.wp * (y.toNat / 16)) * 32) % 8) := by
  unfold pixelAddr panelWidth panelHeight
  split
  · rename_i h
    constructor
    · intro h'
      cases h'
    · rintro ⟨⟨hx, hy, hxw, hyh⟩, -⟩
      omega
  · rename_i h
    simp only [Option.some.injEq, Prod.mk.injEq]
    constructor
    · rintro ⟨rfl, rfl⟩
      exact ⟨by omega, rfl, rfl⟩
    · rintro ⟨-, rfl, rfl⟩
      exact ⟨rfl, rfl⟩

theorem pixelAddr_eq_none {c : Config} {x y : Int} :
    pixelAddr c x y = none ↔ ¬ (0 ≤ x ∧ 0 ≤ y ∧ x < c.gridWidth ∧ y < c.gridHeight) := by
  unfold pixelAddr
  split
  · rename_i h
    simp only [true_iff]
    omega
  · rename_i h
    simp only [false_iff, reduceCtorEq]
    omega

/-- The panel index of a pixel of the grid is below T. -/
theorem panelIndex_lt {wp hp x y : Nat} (hx : x < 32 * wp) (hy : y < 16 * hp) : x / 32 + wp * (y / 16) < wp * hp := by
  have h1 : x / 32 < wp := by omega
  have h2 : y / 16 + 1 ≤ hp := by omega
  calc x / 32 + wp * (y / 16) < wp + wp * (y / 16) := by omega
    _ = wp * (y / 16 + 1) := by ring
    _ ≤ wp * hp := Nat.mul_le_mul_left wp h2

/-- A pixel's byte lies in FB (R61). -/
theorem pixelAddr_lt {c : Config} {x y : Int} {i : Nat} {m : Byte} (h : pixelAddr c x y = some (i, m)) :
    i < c.fbBytes := by
  obtain ⟨⟨hx, hy, hxw, hyh⟩, rfl, -⟩ := pixelAddr_eq_some.mp h
  simp only [Config.gridWidth, Config.gridHeight, panelWidth, panelHeight] at hxw hyh
  have hp := panelIndex_lt (wp := c.wp) (hp := c.hp) (x := x.toNat) (y := y.toNat) (by omega) (by omega)
  simp only [Config.fbBytes, Config.rowBytes, Config.panels]
  generalize x.toNat / 32 + c.wp * (y.toNat / 16) = p at hp
  generalize c.wp * c.hp = t at hp
  have h1 : y.toNat % 16 * (4 * t) ≤ 15 * (4 * t) := Nat.mul_le_mul_right _ (by omega)
  omega

/-! ## Micro-operations -/

/-- A plot off the grid changes nothing (R121). -/
theorem plot_off {s : State} {x y : Int} (mode : Mode) (v : Bool) (h : pixelAddr s.cfg x y = none) :
    plot s x y mode v = s := by
  simp [plot, h]

/-- A plot on the grid is one byte write (R121). -/
theorem plot_on {s : State} {x y : Int} {i : Nat} {m : Byte} (mode : Mode) (v : Bool)
    (h : pixelAddr s.cfg x y = some (i, m)) :
    plot s x y mode v = fbWrite s i (compose s.cfg.norVariant mode (fbRead s i) m v) := by
  simp [plot, h]

/-- Plots keep the canonical form of FB. -/
theorem plot_wf {s : State} {x y : Int} {mode : Mode} {v : Bool}
    (h : Memory.wf fbUnlisted s.cfg.fbBytes s.fb = true) :
    Memory.wf fbUnlisted s.cfg.fbBytes (plot s x y mode v).fb = true := by
  cases ha : pixelAddr s.cfg x y with
  | none => rwa [plot_off mode v ha]
  | some p =>
    rw [plot_on mode v ha]
    exact Memory.wf_write h (pixelAddr_lt ha)

theorem checkedFbWrite_eq_next {s t : State} {i : Nat} {v : Byte} :
    checkedFbWrite s i v = .next t ↔ i < s.cfg.fbBytes ∧ t = fbWrite s i v := by
  unfold checkedFbWrite
  split
  · rename_i h
    simp [h, eq_comm]
  · rename_i h
    simp [h]

/-- What a micro-operation can change: FB, RESULT, the font, the marquee, TEXT, the flags and IE, and nothing else. -/
theorem perform_frame {op : MicroOp} {s t : State} (h : perform op s = .next t) :
    t = { s with
      fb := t.fb, result := t.result, fontBase := t.fontBase, fontValid := t.fontValid, mqText := t.mqText,
      mqLen := t.mqLen, mqWidth := t.mqWidth, mqHeight := t.mqHeight, mqOX := t.mqOX, mqOY := t.mqOY, text := t.text,
      flag0 := t.flag0, flag1 := t.flag1, ie := t.ie } := by
  cases op with
  | plot x y mode v =>
    simp only [perform, Host.Outcome.next.injEq] at h
    subst h
    unfold plot
    split <;> rfl
  | clearFlag k =>
    simp only [perform, Host.Outcome.next.injEq] at h
    subst h
    unfold writeFlag
    split <;> rfl
  | fbWrite i v =>
    obtain ⟨-, rfl⟩ := checkedFbWrite_eq_next.mp h
    rfl
  | shiftLeftByte i =>
    obtain ⟨-, rfl⟩ := checkedFbWrite_eq_next.mp h
    rfl
  | shiftRightByte i =>
    obtain ⟨-, rfl⟩ := checkedFbWrite_eq_next.mp h
    rfl
  | _ =>
    simp only [perform, Host.Outcome.next.injEq] at h
    subst h
    rfl

/-- A micro-operation whose indices are in range answers a next state. -/
theorem perform_inRange {op : MicroOp} {s : State} (h : op.inRange s.cfg = true) : ∃ t, perform op s = .next t := by
  cases op with
  | fbWrite i v => exact ⟨_, checkedFbWrite_eq_next.mpr ⟨by simpa [MicroOp.inRange] using h, rfl⟩⟩
  | shiftLeftByte i => exact ⟨_, checkedFbWrite_eq_next.mpr ⟨by simpa [MicroOp.inRange] using h, rfl⟩⟩
  | shiftRightByte i => exact ⟨_, checkedFbWrite_eq_next.mpr ⟨by simpa [MicroOp.inRange] using h, rfl⟩⟩
  | _ => exact ⟨_, rfl⟩

@[simp] theorem performAll_nil (s : State) : performAll [] s = .next s := rfl

/-- Performing a list whose first micro-operation answers `t` goes on from `t`. -/
theorem performAll_cons {op : MicroOp} {ops : List MicroOp} {s t : State} (h : perform op s = .next t) :
    performAll (op :: ops) s = performAll ops t := by
  simp [performAll, h]

/-- Performing a list in two parts. -/
theorem performAll_append {ops ops' : List MicroOp} : ∀ {s t : State}, performAll ops s = .next t →
    performAll (ops ++ ops') s = performAll ops' t := by
  induction ops with
  | nil =>
    intro s t h
    simp only [performAll_nil, Host.Outcome.next.injEq] at h
    simp [h]
  | cons op ops ih =>
    intro s t h
    simp only [performAll, List.cons_append] at h ⊢
    split at h
    · exact ih h
    · cases h
    · cases h

/-- A micro-operation leaves every byte of FB it misses as it was. -/
theorem perform_misses {op : MicroOp} {s t : State} {a : Nat} (h : perform op s = .next t)
    (hm : op.misses s.cfg a = true) : fbRead t a = fbRead s a := by
  have other : ∀ {i : Nat} {v : Byte}, (i != a) = true → fbRead (fbWrite s i v) a = fbRead s a := fun hi =>
    Memory.read_write_other s.fb (by simpa using hi)
  cases op with
  | plot x y mode v =>
    simp only [perform, Host.Outcome.next.injEq] at h
    subst h
    cases ha : pixelAddr s.cfg x y with
    | none => rw [plot_off mode v ha]
    | some p =>
      rw [plot_on mode v ha]
      simp only [MicroOp.misses, ha] at hm
      exact other hm
  | fbWrite i v =>
    obtain ⟨-, rfl⟩ := checkedFbWrite_eq_next.mp h
    exact other hm
  | shiftLeftByte i =>
    obtain ⟨-, rfl⟩ := checkedFbWrite_eq_next.mp h
    exact other hm
  | shiftRightByte i =>
    obtain ⟨-, rfl⟩ := checkedFbWrite_eq_next.mp h
    exact other hm
  | clearFlag k =>
    simp only [perform, Host.Outcome.next.injEq] at h
    subst h
    unfold writeFlag
    split <;> rfl
  | _ =>
    simp only [perform, Host.Outcome.next.injEq] at h
    subst h
    rfl

/-- What a list of micro-operations can change, and the bytes of FB all of them miss. -/
theorem performAll_frame : ∀ {ops : List MicroOp} {s t : State}, performAll ops s = .next t →
    (t = { s with
      fb := t.fb, result := t.result, fontBase := t.fontBase, fontValid := t.fontValid, mqText := t.mqText,
      mqLen := t.mqLen, mqWidth := t.mqWidth, mqHeight := t.mqHeight, mqOX := t.mqOX, mqOY := t.mqOY, text := t.text,
      flag0 := t.flag0, flag1 := t.flag1, ie := t.ie }) ∧
    ∀ a, ops.all (MicroOp.misses s.cfg a) = true → fbRead t a = fbRead s a
  | [], s, t, h => by
    simp only [performAll_nil, Host.Outcome.next.injEq] at h
    subst h
    exact ⟨rfl, fun _ _ => rfl⟩
  | op :: ops, s, t, h => by
    simp only [performAll] at h
    split at h
    · rename_i u hu
      have hf := perform_frame hu
      have hc : u.cfg = s.cfg := by rw [hf]
      obtain ⟨h1, h2⟩ := performAll_frame h
      refine ⟨?_, fun a ha => ?_⟩
      · rw [h1, hf]
      · simp only [List.all_cons, Bool.and_eq_true] at ha
        rw [h2 a (by rw [hc]; exact ha.2), perform_misses hu ha.1]
    · cases h
    · cases h

/-- A list of plots always completes and changes FB only. -/
theorem performAll_plotAll (mode : Mode) (v : Bool) (ps : List (Int × Int)) : ∀ s : State,
    ∃ t, performAll (plotAll mode v ps) s = .next t ∧ t = { s with fb := t.fb } := by
  induction ps with
  | nil => exact fun s => ⟨s, rfl, rfl⟩
  | cons p ps ih =>
    intro s
    obtain ⟨t, ht, hf⟩ := ih (plot s p.1 p.2 mode v)
    refine ⟨t, ht, ?_⟩
    rw [hf]
    unfold plot
    split <;> rfl

/-! ## Issue and faults -/

/-- Issue without a fault changes CUR only (R25). -/
theorem issueOps_next {ops : List MicroOp} {s t : State} (h : issueOps ops s = .next t) : t = { s with cur := ops } := by
  simp only [issueOps, Host.Outcome.next.injEq] at h
  exact h.symm

/-- The first fault is recorded with its command word, and nothing else changes but CUR (R281). -/
theorem raiseFault_first {k : FaultKind} {w : Word} {s : State} (h : s.faultCode = faultNone) :
    raiseFault k w s = { s with faultCode := k.code, faultCmd := w, cur := [] } := by
  simp [raiseFault, h]

/-- A later fault leaves the record as it is (R281). -/
theorem raiseFault_later {k : FaultKind} {w : Word} {s : State} (h : s.faultCode ≠ faultNone) :
    raiseFault k w s = { s with cur := [] } := by
  simp [raiseFault, h]

/-- What issue of a font command can do (R284): a fault for want of a font, a fault for a read outside FONT_ROM, or CUR is
set to the list computed at issue. -/
theorem issueFont_cases (i : Instr) (ops : State → Option (List MicroOp)) (s : State) :
    (s.fontValid = false ∧ issueFont i ops s = .next (raiseFault .fontNotSelected (encode i) s)) ∨
    (s.fontValid = true ∧ ops s = none ∧ issueFont i ops s = .next (raiseFault .fontRange (encode i) s)) ∨
    (∃ l, s.fontValid = true ∧ ops s = some l ∧ issueFont i ops s = .next { s with cur := l }) := by
  unfold issueFont
  by_cases hv : s.fontValid = true
  · cases ho : ops s with
    | none => exact .inr (.inl ⟨hv, rfl, by simp [hv, failIssue]⟩)
    | some l => exact .inr (.inr ⟨l, hv, rfl, by simp [hv, issueOps]⟩)
  · exact .inl ⟨by simpa using hv, by simp [hv, failIssue]⟩

/-! ## Lists that a font read can cut short -/

theorem gather_cons_some {α β : Type} {f : α → Option (List β)} {a : α} {as : List α} {r : List β} :
    gather f (a :: as) = some r ↔ ∃ x xs, f a = some x ∧ gather f as = some xs ∧ r = x ++ xs := by
  simp only [gather]
  cases f a with
  | none => simp
  | some x =>
    cases gather f as with
    | none => simp
    | some xs => simp [eq_comm]

/-- `gather` answers exactly when `f` answers on every element. -/
theorem gather_isSome {α β : Type} {f : α → Option (List β)} : ∀ {as : List α},
    (gather f as).isSome = true ↔ ∀ a ∈ as, (f a).isSome = true
  | [] => by simp [gather]
  | a :: as => by
    have ih := gather_isSome (f := f) (as := as)
    simp only [List.mem_cons, forall_eq_or_imp, ← ih, gather]
    cases f a with
    | none => simp
    | some x =>
      cases gather f as with
      | none => simp
      | some xs => simp

/-- Every element of what `gather` answers comes from one of the lists. -/
theorem mem_gather {α β : Type} {f : α → Option (List β)} : ∀ {as : List α} {r : List β} {b : β},
    gather f as = some r → b ∈ r → ∃ a ∈ as, ∃ x, f a = some x ∧ b ∈ x
  | [], _, _, h, hb => by
    simp only [gather, Option.some.injEq] at h
    subst h
    cases hb
  | a :: as, r, b, h, hb => by
    obtain ⟨x, xs, hx, hxs, rfl⟩ := gather_cons_some.mp h
    rcases List.mem_append.mp hb with hb | hb
    · exact ⟨a, List.mem_cons_self, x, hx, hb⟩
    · obtain ⟨a', ha', x', hx', hb'⟩ := mem_gather hxs hb
      exact ⟨a', List.mem_cons_of_mem _ ha', x', hx', hb'⟩

/-! ## The circle's bound -/

/-- More rounds than y - x change nothing: the bound of `circleSteps` never cuts the loop of R190 short. -/
theorem circleSteps_enough : ∀ (n k : Nat) (cx cy x y p : Int), (y - x).toNat ≤ n →
    circleSteps (n + k) cx cy x y p = circleSteps n cx cy x y p
  | 0, k, cx, cy, x, y, p, h => by
    have hxy : ¬ x < y := by omega
    cases k with
    | zero => rfl
    | succ k => simp [circleSteps, hxy]
  | n + 1, k, cx, cy, x, y, p, h => by
    rw [Nat.add_right_comm]
    simp only [circleSteps]
    split
    · congr 1
      exact circleSteps_enough n k cx cy _ _ _ (by split <;> omega)
    · rfl

end Sys2Proof.Machine
end

