-- ==== Sys2Proof/Laws/PerInstr.lean ====
section
/-! SUPPORT. A family of statements about the commands as syntax, one lemma per constructor: the fields of a command's
word have no reserved bit set, and an opcode of R97. -/

namespace Sys2Proof.Laws.ReservedZero

/-- The command's word has RSV = 0 and an opcode of the map of R97 (R98, R99). -/
def Statement (i : Instr) : Prop :=
  (Fields.unpack (encode i)).rsv = 0#8 ∧
  (Fields.unpack (encode i)).op.toNat ∈ [1, 2, 3, 4, 5, 6, 7, 8, 9, 10, 11, 12, 13, 14, 16, 17, 18, 19, 20, 21]

theorem writePixel (mode : Mode) (v : Bool) : Statement (.writePixel mode v) := by
  simp [Statement, encode, encodeFields]

theorem clear (v : Bool) : Statement (.clear v) := by
  simp [Statement, encode, encodeFields]

theorem selectFont : Statement .selectFont := by
  simp [Statement, encode, encodeFields]

theorem charWidth (ch : Byte) : Statement (.charWidth ch) := by
  simp [Statement, encode, encodeFields]

theorem drawChar (mode : Mode) (ch : Byte) : Statement (.drawChar mode ch) := by
  simp [Statement, encode, encodeFields]

theorem textWrite (ch : Byte) : Statement (.textWrite ch) := by
  simp [Statement, encode, encodeFields]

theorem drawString (mode : Mode) (len : Byte) : Statement (.drawString mode len) := by
  simp [Statement, encode, encodeFields]

theorem drawLine (mode : Mode) : Statement (.drawLine mode) := by
  simp [Statement, encode, encodeFields]

theorem drawBox (mode : Mode) : Statement (.drawBox mode) := by
  simp [Statement, encode, encodeFields]

theorem drawFilledBox (mode : Mode) : Statement (.drawFilledBox mode) := by
  simp [Statement, encode, encodeFields]

theorem drawCircle (mode : Mode) : Statement (.drawCircle mode) := by
  simp [Statement, encode, encodeFields]

theorem drawTestPattern (kind : TestKind) : Statement (.drawTestPattern kind) := by
  simp [Statement, encode, encodeFields]

theorem drawMarquee (len : Byte) : Statement (.drawMarquee len) := by
  simp [Statement, encode, encodeFields]

theorem stepMarquee : Statement .stepMarquee := by
  simp [Statement, encode, encodeFields]

theorem tickRead : Statement .tickRead := by
  simp [Statement, encode, encodeFields]

theorem tickReadByte (idx : Byte) : Statement (.tickReadByte idx) := by
  simp [Statement, encode, encodeFields]

theorem ieSaveDisable (src : Source) : Statement (.ieSaveDisable src) := by
  simp [Statement, encode, encodeFields]

theorem ieRestore (src : Source) : Statement (.ieRestore src) := by
  simp [Statement, encode, encodeFields]

theorem flagRead (idx : Byte) : Statement (.flagRead idx) := by
  simp [Statement, encode, encodeFields]

theorem flagClear (idx : Byte) : Statement (.flagClear idx) := by
  simp [Statement, encode, encodeFields]

end Sys2Proof.Laws.ReservedZero
end

