-- ==== Sys2Proof/Laws/Step.lean ====
section
/-! SUPPORT. What a step can do, said once: every later proof about a step goes through these lemmas. -/

namespace Sys2Proof.Machine

/-- The main context is idle exactly when no handler runs, no source is eligible and CUR is empty. -/
theorem idle_iff {s : State} : idle s = true ↔ s.ctx = .main ∧ nextSource s = none ∧ s.cur = [] := by
  simp [idle, and_assoc]

/-- What the block's own step can do (R291): a handler returns, an eligible source is entered, the head of CUR is
performed, or nothing happens. -/
theorem blockStep_cases {s t : State} (h : blockStep s = .next t) :
    (s.ctx = .handler ∧ t = returnFromHandler s) ∨
    (s.ctx = .main ∧ ∃ n, nextSource s = some n ∧ t = enter n s) ∨
    (s.ctx = .main ∧ nextSource s = none ∧ ∃ op rest, s.cur = op :: rest ∧ perform op { s with cur := rest } = .next t) ∨
    (s.ctx = .main ∧ nextSource s = none ∧ s.cur = [] ∧ t = s) := by
  unfold blockStep at h
  split at h
  · rename_i hc
    simp only [Host.Outcome.next.injEq] at h
    exact .inl ⟨hc, h.symm⟩
  · rename_i hc
    split at h
    · rename_i n hn
      simp only [Host.Outcome.next.injEq] at h
      exact .inr (.inl ⟨hc, n, hn, h.symm⟩)
    · rename_i hn
      split at h
      · rename_i op rest hcur
        exact .inr (.inr (.inl ⟨hc, hn, op, rest, hcur, h⟩))
      · rename_i hcur
        simp only [Host.Outcome.next.injEq] at h
        exact .inr (.inr (.inr ⟨hc, hn, hcur, h.symm⟩))

/-- What presenting a word can do (R25, R281, R282): nothing after a fault, an ILLEGAL_COMMAND fault, or the command. -/
theorem presentWord_cases (w : Word) (s : State) :
    (s.faultCode ≠ faultNone ∧ presentWord w s = .next s) ∨
    (s.faultCode = faultNone ∧ decode s.cfg.tickWidth w = none ∧
      presentWord w s = .next (raiseFault .illegalCommand w s)) ∨
    (∃ i, s.faultCode = faultNone ∧ decode s.cfg.tickWidth w = some i ∧ presentWord w s = exec i s) := by
  unfold presentWord
  split
  · rename_i hf
    exact .inl ⟨hf, rfl⟩
  · rename_i hf
    have hf : s.faultCode = faultNone := by simpa using hf
    cases hd : decode s.cfg.tickWidth w with
    | none => exact .inr (.inl ⟨hf, rfl, rfl⟩)
    | some i => exact .inr (.inr ⟨i, hf, rfl, rfl⟩)

/-- What a step can do (R74): the environment sets a pending bit or the bus level; the host accesses a register, with the
main context idle or too early (R337), presents a word with it idle, or sets a variable of its own to a sum of lanes or to a
register of the fault record (R39); or the block takes a step of its own, with or without a `wait`. -/
theorem step_cases {s t : State} (h : step s = .next t) :
    s.cfg.valid = true ∧
    ((∃ n rest, s.env = .request n :: rest ∧ t = requestSource n { s with env := rest }) ∨
     (∃ b rest, s.env = .busBusy b :: rest ∧ t = { s with env := rest, busBusy := b }) ∨
     (∃ a rest, (s.env = .access a :: rest ∧ idle s = true ∨ s.env = .earlyAccess a :: rest) ∧
       t = hostAccess a { s with env := rest }) ∨
     (∃ w rest, s.env = .issue w :: rest ∧ idle s = true ∧ presentWord w { s with env := rest } = .next t) ∨
     (∃ x v rest, ((∃ b n, s.env = .sumLanes x b n :: rest ∧ v = laneSum s b n) ∨
         ∃ r, s.env = .readFault r x :: rest ∧ v = faultValue s r) ∧
       t = setHostVar x v { s with env := rest }) ∨
     (∃ rest, s.env = .wait :: rest ∧ blockStep { s with env := rest } = .next t) ∨
     blockStep s = .next t) := by
  unfold step checkedStep at h
  split at h
  · rename_i hv
    refine ⟨hv, ?_⟩
    unfold sequenceStep hostStep at h
    split at h
    · exact .inr (.inr (.inr (.inr (.inr (.inr h)))))
    · rename_i rest he
      exact .inr (.inr (.inr (.inr (.inr (.inl ⟨rest, he, h⟩)))))
    · rename_i n rest he
      simp only [Host.Outcome.next.injEq] at h
      exact .inl ⟨n, rest, he, h.symm⟩
    · rename_i b rest he
      simp only [Host.Outcome.next.injEq] at h
      exact .inr (.inl ⟨b, rest, he, h.symm⟩)
    · rename_i a rest he
      split at h
      · rename_i hi
        simp only [Host.Outcome.next.injEq] at h
        exact .inr (.inr (.inl ⟨a, rest, .inl ⟨he, hi⟩, h.symm⟩))
      · exact .inr (.inr (.inr (.inr (.inr (.inr h)))))
    · rename_i a rest he
      simp only [Host.Outcome.next.injEq] at h
      exact .inr (.inr (.inl ⟨a, rest, .inr he, h.symm⟩))
    · rename_i r x rest he
      simp only [Host.Outcome.next.injEq] at h
      exact .inr (.inr (.inr (.inr (.inl ⟨x, _, rest, .inr ⟨r, he, rfl⟩, h.symm⟩))))
    · rename_i w rest he
      split at h
      · rename_i hi
        exact .inr (.inr (.inr (.inl ⟨w, rest, he, hi, h⟩)))
      · exact .inr (.inr (.inr (.inr (.inr (.inr h)))))
    · rename_i x b n rest he
      simp only [Host.Outcome.next.injEq] at h
      exact .inr (.inr (.inr (.inr (.inl ⟨x, _, rest, .inl ⟨b, n, he, rfl⟩, h.symm⟩))))
  · cases h

end Sys2Proof.Machine
end

