-- ==== Sys2Proof/Tests/Slice0.lean ====
section
/-! SUPPORT. Tests. Expected results are the spec's: the words of R104 and 95_test_vectors.md L2.12, the vectors of L1 and
L2, and the examples in the rules; a comment names the source where the theorem's name does not. The witnesses at the end
give, for each statement with hypotheses, a state and operands that meet them. -/

namespace Sys2Proof.Tests

open Sys2Proof Sys2Proof.Machine

/-! ## WellFormed refuses ill-formed commands -/

theorem test_wf_refuses_tick_lane : (Instr.tickReadByte 4#8).wf .w32 = false ∧ (Instr.tickReadByte 2#8).wf .w16 = false ∧
    (Instr.tickReadByte 1#8).wf .w8 = false := by decide

theorem test_wf_refuses_flag_read : (Instr.flagRead 2#8).wf .w32 = false := by decide

theorem test_wf_refuses_flag_clear : (Instr.flagClear 2#8).wf .w32 = false := by decide

/-! ## Decoding: one word for each constructor, written from the fields of R91 and the map of R97 -/

theorem test_decode_writePixel : decode .w32 0x00000801#32 = some (.writePixel .normal true) := by decide
theorem test_decode_clear : decode .w32 0x00000802#32 = some (.clear true) := by decide
theorem test_decode_selectFont : decode .w32 0x00000003#32 = some .selectFont := by decide
theorem test_decode_charWidth : decode .w32 0x00410004#32 = some (.charWidth 0x41#8) := by decide
theorem test_decode_drawChar : decode .w32 0x00410205#32 = some (.drawChar .toggle 0x41#8) := by decide
theorem test_decode_textWrite : decode .w32 0x00420006#32 = some (.textWrite 0x42#8) := by decide
theorem test_decode_drawString : decode .w32 0x00020007#32 = some (.drawString .normal 2#8) := by decide
theorem test_decode_drawLine : decode .w32 0x00000108#32 = some (.drawLine .inverse) := by decide
theorem test_decode_drawBox : decode .w32 0x00000209#32 = some (.drawBox .toggle) := by decide
theorem test_decode_drawFilledBox : decode .w32 0x0000030A#32 = some (.drawFilledBox .or) := by decide
theorem test_decode_drawCircle : decode .w32 0x0000040B#32 = some (.drawCircle .nor) := by decide
theorem test_decode_drawTestPattern : decode .w32 0x0000200C#32 = some (.drawTestPattern .stripe0) := by decide
theorem test_decode_drawMarquee : decode .w32 0x0001000D#32 = some (.drawMarquee 1#8) := by decide
theorem test_decode_stepMarquee : decode .w32 0x0000000E#32 = some .stepMarquee := by decide
theorem test_decode_tickRead : decode .w32 0x00000010#32 = some .tickRead := by decide
theorem test_decode_tickReadByte : decode .w32 0x00030011#32 = some (.tickReadByte 3#8) := by decide
theorem test_decode_ieSaveDisable : decode .w32 0x00008012#32 = some (.ieSaveDisable .edge1) := by decide
theorem test_decode_ieRestore : decode .w32 0x00004013#32 = some (.ieRestore .edge0) := by decide
theorem test_decode_flagRead : decode .w32 0x00010014#32 = some (.flagRead 1#8) := by decide
theorem test_decode_flagClear : decode .w32 0x00010015#32 = some (.flagClear 1#8) := by decide

/-- The illegal words of R104, the reserved opcodes of R99 and a lane past TICK_WIDTH. -/
theorem test_decode_illegal :
    decode .w32 0x00000501#32 = none ∧ decode .w32 0x00000803#32 = none ∧ decode .w32 0x0000C012#32 = none ∧
    decode .w32 0x01000002#32 = none ∧ decode .w32 0x00020014#32 = none ∧ decode .w32 0x00000000#32 = none ∧
    decode .w32 0x0000000F#32 = none ∧ decode .w32 0x00000016#32 = none ∧ decode .w16 0x00020011#32 = none := by decide

/-- The table reader: an operand field above the row's bits is 0. -/
theorem test_decodeTableWord : decodeTableWord 32 0x00410005 = some (.drawChar .normal 0x41#8) ∧
    decodeTableWord 32 0x00000501 = none := by decide

/-! ## Small states -/

/-- Font F1 (R151). -/
def fontF1 : List Byte := Config.standard.fontRom

/-- Font F2 (R152). -/
def fontF2 : List Byte :=
  [0x10#8, 0x00#8, 0x00#8, 0x0C#8, 0x30#8, 0x03#8, 0x02#8, 0x01#8, 0x03#8, 0xFF#8, 0x0F#8, 0x80#8, 0x01#8, 0xAA#8, 0x55#8,
   0x01#8, 0x02#8, 0x03#8, 0x04#8, 0x05#8, 0x06#8]

/-- Font F3 of L2.3: fixed, width 3, height 8, one glyph 'n'. -/
def fontF3 : List Byte := [0x00#8, 0x00#8, 0x03#8, 0x08#8, 0x6E#8, 0x01#8, 0xFF#8, 0x81#8, 0xFF#8]

/-- One panel after reset with the font selected at address 0 and the arguments written. -/
def start (font : List Byte) (a0 a1 : Int) : State :=
  { State.resetWith { Config.standard with fontRom := font } with
    fontValid := true, a0 := BitVec.ofInt 16 a0, a1 := BitVec.ofInt 16 a1 }

/-- `start` with the other two arguments, for the shapes. -/
def shape (x1 y1 x2 y2 : Int) : State :=
  { start fontF1 x1 y1 with a2 := BitVec.ofInt 16 x2, a3 := BitVec.ofInt 16 y2 }

/-- The state after the command, run to its end. -/
def after (i : Instr) (s : State) : Option State :=
  match exec i s with
  | .next m =>
    match finish m with
    | .next t => some t
    | _ => none
  | _ => none

/-- The bytes of FB that are not 0xFF, after the command. -/
def bytesAfter (i : Instr) (s : State) : Option Memory := (after i s).map State.fb

/-- RESULT after the command. -/
def resultAfter (i : Instr) (s : State) : Option Word := (after i s).map State.result

/-- FAULT_CODE and FAULT_CMD after the command. -/
def faultAfter (i : Instr) (s : State) : Option (Byte × Word) := (after i s).map fun t => (t.faultCode, t.faultCmd)

/-- One step's next state. -/
def next (s : State) : Option State :=
  match step s with
  | .next t => some t
  | _ => none

/-! ## Commands -/

/-- L1.1. -/
theorem test_writePixel_lights : bytesAfter (.writePixel .normal true) (shape 0 0 0 0) = some [(0, 0x7F#8)] := by
  decide +kernel

/-- L2.2: A0 = 0xFFFF reads as -1, off the grid. -/
theorem test_writePixel_offGrid : bytesAfter (.writePixel .normal true) (shape (-1) 0 0 0) = some [] := by decide +kernel

/-- L2.2: every byte 0x00. -/
theorem test_clear_lit : bytesAfter (.clear false) State.reset = some ((List.range 64).map fun i => (i, 0x00#8)) := by
  decide +kernel

/-- C1: V = 1 is all dark. -/
theorem test_clear_dark : bytesAfter (.clear true) { State.reset with fb := [(5, 0x12#8)] } = some [] := by decide +kernel

/-- R141: A0 is unsigned. -/
theorem test_selectFont : (after .selectFont { State.reset with a0 := 0x8100#16 }).map
    (fun t => (t.fontBase, t.fontValid, t.faultCode)) = some (0x8100#16, true, 0#8) := by decide +kernel

/-- L2.3: fixed and proportional widths. -/
theorem test_charWidth : resultAfter (.charWidth 0x41#8) (start fontF1 0 0) = some 5#32 ∧
    resultAfter (.charWidth 0x32#8) (start fontF2 0 0) = some 3#32 := by decide +kernel

/-- L2.3: the space has the width of 'n'. -/
theorem test_charWidth_space : resultAfter (.charWidth 0x20#8) (start fontF3 0 0) = some 3#32 := by decide +kernel

/-- L2.3: F2's '0' at (4, 2), whose last column byte is adjusted to h - 8. -/
theorem test_drawChar_proportional : bytesAfter (.drawChar .normal 0x30#8) (start fontF2 4 2) =
    some [(8, 0xF3#8), (12, 0xF7#8), (16, 0xF7#8), (20, 0xF7#8), (24, 0xF7#8), (28, 0xF7#8), (32, 0xF7#8), (36, 0xF7#8),
      (40, 0xF7#8), (44, 0xF7#8), (48, 0xF7#8), (52, 0xF3#8)] := by decide +kernel

/-- L2.3: the left edge clips, and the width is still returned. -/
theorem test_drawChar_leftEdge : (after (.drawChar .normal 0x41#8) (start fontF1 (-3) 0)).map (fun t => (t.result, t.fb)) =
    some (5#32, [(0, 0x7F#8), (4, 0xBF#8), (8, 0xBF#8), (12, 0x3F#8), (16, 0xBF#8), (20, 0xBF#8), (24, 0xBF#8)]) := by
  decide +kernel

/-- L2.4. -/
theorem test_textWrite_last : (after (.textWrite 0x41#8) (start fontF1 255 0)).map State.text = some [(255, 0x41#8)] := by
  decide +kernel

/-- L2.4, R302. -/
theorem test_textWrite_outside : faultAfter (.textWrite 0x41#8) (start fontF1 256 0) = some (2#8, 0x00410006#32) ∧
    faultAfter (.textWrite 0x41#8) (start fontF1 (-1) 0) = some (2#8, 0x00410006#32) := by decide +kernel

/-- R172's example: "ABA" gives the bytes of "AA". -/
theorem test_drawString : bytesAfter (.drawString .normal 3#8)
      { start fontF1 0 0 with text := [(0, 0x41#8), (1, 0x42#8), (2, 0x41#8)] } =
    some [(0, 0x8E#8), (1, 0x3F#8), (4, 0x75#8), (5, 0xDF#8), (8, 0x75#8), (9, 0xDF#8), (12, 0x04#8), (13, 0x1F#8),
      (16, 0x75#8), (17, 0xDF#8), (20, 0x75#8), (21, 0xDF#8), (24, 0x75#8), (25, 0xDF#8)] := by decide +kernel

/-- R173: the string stops at the right edge. -/
theorem test_drawString_stops : bytesAfter (.drawString .normal 2#8)
      { start fontF1 28 0 with text := [(0, 0x41#8), (1, 0x41#8)] } =
    some [(3, 0xF8#8), (7, 0xF7#8), (11, 0xF7#8), (15, 0xF0#8), (19, 0xF7#8), (23, 0xF7#8), (27, 0xF7#8)] := by
  decide +kernel

/-- R181's examples, along each axis. -/
theorem test_drawLine_points : linePoints 5 5 1 3 = [(5, 5), (4, 4), (3, 4), (2, 3), (1, 3)] ∧
    linePoints 0 0 1 3 = [(0, 0), (0, 1), (1, 2), (1, 3)] := by decide +kernel

/-- L1.3. -/
theorem test_drawLine_onePoint : bytesAfter (.drawLine .normal) (shape 5 7 5 7) = some [(28, 0xFB#8)] := by decide +kernel

/-- R183: in TOGGLE the corners end unchanged. -/
theorem test_drawBox_toggle : bytesAfter (.drawBox .toggle) (shape 1 1 3 2) = some [(4, 0xDF#8), (8, 0xDF#8)] := by
  decide +kernel

/-- R184. -/
theorem test_drawFilledBox : bytesAfter (.drawFilledBox .normal) (shape 1 0 2 1) = some [(0, 0x9F#8), (4, 0x9F#8)] ∧
    bytesAfter (.drawFilledBox .normal) (shape 3 0 1 2) = some [] := by decide +kernel

/-- R192: r = 3 in TOGGLE. -/
theorem test_drawCircle : bytesAfter (.drawCircle .toggle) (shape 8 8 3 0) =
    some [(20, 0xFE#8), (21, 0x3F#8), (24, 0xFD#8), (25, 0xDF#8), (28, 0xFB#8), (29, 0xEF#8), (32, 0xFB#8), (33, 0xEF#8),
      (36, 0xFB#8), (37, 0xEF#8), (40, 0xFD#8), (41, 0xDF#8), (44, 0xFE#8), (45, 0x3F#8)] := by decide +kernel

/-- R192: a negative radius. -/
theorem test_drawCircle_negative : circlePoints 8 8 (-1) = [(8, 7), (8, 9), (7, 8), (9, 8)] := by decide +kernel

/-- R201: kind 0, bytes 0 and 4, from the plots of the first two rows. -/
theorem test_drawTestPattern : (match performAll ((testPattern Config.standard .checker0).take 64) State.reset with
    | .next t => some (fbRead t 0, fbRead t 4)
    | _ => none) = some (0xAA#8, 0x55#8) := by decide +kernel

/-- The machine about to start a marquee of "A" at the right edge. -/
def marqueeStart : State := { start fontF1 32 0 with text := [(0, 0x41#8)] }

/-- R205's example. -/
theorem test_drawMarquee :
    (after (.drawMarquee 1#8) marqueeStart).map (fun t => (t.mqText, t.mqLen, t.mqWidth)) = some ([(0, 0x41#8)], 1#8, 6) ∧
    (after (.drawMarquee 1#8) marqueeStart).map (fun t => (t.mqHeight, t.mqOX, t.fb)) = some (8#8, 32, []) := by
  decide +kernel

/-- A marquee of "A" at an offset, after DRAW_MARQUEE. -/
def marquee (fast : Bool) (ox : Int) (dx dy : Int) : State :=
  { start fontF1 dx dy with
    cfg := { Config.standard with marqueeFastShift := fast }
    mqText := [(0, 0x41#8)], mqLen := 1#8, mqWidth := 6, mqHeight := 8#8, mqOX := ox }

/-- R207's examples: the offsets and RESULT of a step past the left edge, and of one past the bottom. -/
theorem test_stepMarquee_wraps :
    (after .stepMarquee (marquee false (-6) (-1) 0)).map (fun t => (t.mqOX, t.mqOY, t.result)) = some (32, 0, 1#32) ∧
    (after .stepMarquee (marquee false 0 0 17)).map (fun t => (t.mqOY, t.result, t.fb)) = some (-8, 1#32, []) := by
  decide +kernel

/-- R207's example: one step to the left of the drawn "A" gives the same bytes with the fast shift. -/
theorem test_stepMarquee_fast : bytesAfter .stepMarquee
      { marquee true 0 (-1) 0 with
        fb := [(0, 0x8F#8), (4, 0x77#8), (8, 0x77#8), (12, 0x07#8), (16, 0x77#8), (20, 0x77#8), (24, 0x77#8)] } =
    some [(0, 0x1F#8), (4, 0xEF#8), (8, 0xEF#8), (12, 0x0F#8), (16, 0xEF#8), (20, 0xEF#8), (24, 0xEF#8)] := by
  decide +kernel

/-- R253's example. -/
theorem test_tickRead : resultAfter .tickRead { State.reset with tick := 0x00012345#32 } = some 0x00012345#32 := by
  decide +kernel

/-- R254's example. -/
theorem test_tickReadByte : resultAfter (.tickReadByte 1#8) { State.reset with tick := 0x00012345#32 } = some 0x23#32 ∧
    resultAfter (.tickReadByte 2#8) { State.reset with tick := 0x00012345#32 } = some 0x01#32 := by decide +kernel

/-- R256's example. -/
theorem test_ieSaveDisable : (after (.ieSaveDisable .timer) { State.reset with ie := 0b011#3 }).map
    (fun t => (t.result, t.ie)) = some (1#32, 0b010#3) := by decide +kernel

/-- R257: only A0[0] counts. -/
theorem test_ieRestore : (after (.ieRestore .edge1) { State.reset with a0 := 0xFFFE#16, ie := 0b111#3 }).map State.ie =
    some 0b011#3 := by decide +kernel

/-- R259's example. -/
theorem test_flagRead : resultAfter (.flagRead 1#8) (enter .edge1 State.reset) = some 1#32 := by decide +kernel

/-- R260. -/
theorem test_flagClear : (after (.flagClear 0#8) { State.reset with flag0 := 1#8, flag1 := 1#8 }).map
    (fun t => (t.flag0, t.flag1)) = some (0#8, 1#8) := by decide +kernel

/-! ## Faults, handlers and the step -/

/-- L2.3's truncated font: the glyph is cut after column 2. -/
theorem test_fontRange : faultAfter (.drawChar .normal 0x41#8) (start (fontF1.take 9) 0 0) = some (4#8, 0x00410005#32) ∧
    resultAfter (.charWidth 0x41#8) (start (fontF1.take 9) 0 0) = some 5#32 := by decide +kernel

/-- R302: a font command with no font selected. -/
theorem test_fontNotSelected : faultAfter (.drawChar .normal 0x41#8) { start fontF1 0 0 with fontValid := false } =
    some (3#8, 0x00410005#32) := by decide +kernel

/-- R302: the word 0x0000000F from reset. -/
theorem test_illegalWord : (next { State.reset with env := [.issue 0x0000000F#32] }).map
    (fun t => (t.faultCode, t.faultCmd)) = some (1#8, 0x0000000F#32) := by decide +kernel

/-- R232, run 2: rows 1, 5, 9 and 13 of the buffer with (0,0), (31,15) and (8,5) lit. -/
theorem test_scan : (enter .timer { State.reset with
      fb := [(0, 0x7F#8), (21, 0x7F#8), (63, 0xFE#8)], phase := 1#2 }).out =
    (List.replicate 6 0xFF#8 ++ [0x7F#8] ++ List.replicate 9 0xFF#8).map .ser ++
      [.blank, .latch, .rowSel 1#2, .unblank] := by decide +kernel

/-- L1.7: a scan with the bus busy. -/
theorem test_busyScan : enter .timer { State.reset with busBusy := true } =
    { State.reset with busBusy := true, tick := 1#32 } := by decide +kernel

/-- R302: all three pending at once, TIMER first. -/
theorem test_dispatchOrder : (next { State.reset with ie := 0b111#3, pend := 0b111#3 }).map
    (fun t => (t.pend, t.tick, t.flag0, t.flag1)) = some (0b110#3, 1#32, 0#8, 0#8) := by decide +kernel

/-! ## The host's program -/

/-- The state after `n` steps. -/
def afterSteps (n : Nat) (s : State) : Option State :=
  match Host.Core.run Sys2Proof.core n s with
  | .next t => some t
  | _ => none

/-- A machine at TICK = 0x01FF with TIMER enabled, that runs the events `env`. -/
def hosted (env : List EnvEvent) : State := { State.reset with tick := 0x01FF#32, ie := 0b001#3, env := env }

/-- R255's race: a tick between the reads of the lanes 0 and 1 gives 0x02FF, which TICK never was. -/
theorem test_lanes_race :
    (afterSteps 9 (hosted ([command (.tickReadByte 0#8), .wait, .access (.getResult 2), .request .timer, .wait] ++
      [command (.tickReadByte 1#8), .wait, .access (.getResult 3), .sumLanes 0 2 2]))).map
      (fun t => (hostVar t 0, t.tick)) = some (0x02FF#32, 0x0200#32) := by decide +kernel

/-- R255: under TICK_ATOMIC the tick waits, and runs when the enable is restored. -/
theorem test_tickAtomic : (afterSteps 21 (hosted (((tickAtomic .w32 0 1 2).take 4) ++ [.request .timer] ++
      (tickAtomic .w32 0 1 2).drop 4))).map (fun t => (hostVar t 0, t.tick, t.ie, hostVar t 1)) =
    some (0x01FF#32, 0x0200#32, 0b001#3, 1#32) := by decide +kernel

/-- R265: an edge between FLAG_READ and FLAG_CLEAR of FLAG_TAC is not lost: its handler runs after the clear. -/
theorem test_flagTestAndClear :
    (afterSteps 13 { hosted ((flagTestAndClear 0 0 1).take 4 ++ [.request .edge0] ++ (flagTestAndClear 0 0 1).drop 4) with
      ie := 0b010#3 }).map (fun t => (hostVar t 0, t.flag0, t.pend, t.ie)) = some (0#32, 1#8, 0#3, 0b010#3) := by
  decide +kernel

/-- R337: a RESULT read before completion reads the old value. -/
theorem test_earlyRead :
    (afterSteps 3 { State.reset with result := 3#32, tick := 9#32, env := [command .tickRead, .earlyAccess (.getResult 0)] }).map
      (fun t => (hostVar t 0, t.result)) = some (3#32, 9#32) := by decide +kernel

/-- R39 on R302's word 0x0000000F: the host reads both registers, the second after the fault has stopped the main context. -/
theorem test_readFault :
    (afterSteps 4 { State.reset with
      env := [.issue 0x0000000F#32, .readFault .code 0, .issue 0x00000801#32, .readFault .cmd 1] }).map
      (fun t => (hostVar t 0, hostVar t 1, t.cur)) = some (1#32, 0x0000000F#32, []) := by decide +kernel

/-- R39: the host need not wait for a command in progress, nor for a fault. -/
theorem test_readFault_busy : (next { State.reset with
      cur := [.setResult 7#32], pend := 1#3, ie := 1#3, hostVars := [(0, 9#32)], env := [.readFault .code 0] }).map
      (fun t => (hostVar t 0, t.cur, t.pend, t.env)) = some (0#32, [.setResult 7#32], 1#3, []) := by decide +kernel

/-- R335: two requests with the handler and a step of the main context between them; the handler alone; and neither. -/
theorem test_platform :
    (timersInTime 5 (hosted [.request .timer, .wait, .wait, .request .timer]) = true ∧
      mainProgresses 5 false (hosted [.request .timer, .wait, .wait, .request .timer]) = true) ∧
    (timersInTime 5 (hosted [.request .timer, .wait, .request .timer]) = true ∧
      mainProgresses 5 false (hosted [.request .timer, .wait, .request .timer]) = false) ∧
    timersInTime 5 (hosted [.request .timer, .request .timer]) = false := by decide +kernel

/-! ## Witnesses: states and operands that meet the hypotheses of the statements -/

theorem witness_DecodeEncode : (Instr.tickReadByte 3#8).wf .w32 = true ∧ (Instr.tickReadByte 1#8).wf .w16 = true ∧
    (Instr.tickReadByte 0#8).wf .w8 = true ∧ (Instr.flagRead 1#8).wf .w8 = true := by decide

theorem witness_EncodeDecode : decode .w32 0x00030011#32 = some (.tickReadByte 3#8) := by decide

theorem witness_DecodeFollowsTable :
    (∃ row ∈ opcodeTable, row = (Instr.writePixel .normal false).row ∧ rowAccepts .w32 row 0x00000C01#32) ∧
    ¬ rowAccepts .w32 (Instr.writePixel .normal false).row 0x00000D01#32 := by
  unfold rowAccepts
  decide +kernel

/-- A state about to accept a word. -/
def presenting (w : Word) : State := { State.reset with env := [.issue w] }

/-- A word that decodes, and one that does not. -/
theorem witness_StepRunsDecoded :
    ((presenting 0x00000801#32).cfg.valid = true ∧ (presenting 0x00000801#32).env = .issue 0x00000801#32 :: [] ∧
      idle (presenting 0x00000801#32) = true ∧ (presenting 0x00000801#32).faultCode = faultNone ∧
      decode (presenting 0x00000801#32).cfg.tickWidth 0x00000801#32 = some (.writePixel .normal true)) ∧
    ((presenting 0x00000501#32).cfg.valid = true ∧ (presenting 0x00000501#32).env = .issue 0x00000501#32 :: [] ∧
      idle (presenting 0x00000501#32) = true ∧ (presenting 0x00000501#32).faultCode = faultNone ∧
      decode (presenting 0x00000501#32).cfg.tickWidth 0x00000501#32 = none) := by decide +kernel

/-- A command in progress whose arguments the host overwrites and whose RESULT it reads, too early. -/
def early (a : HostAccess) : State :=
  { State.reset with cur := [.setResult 7#32], result := 3#32, hostVars := [(1, 0x12345#32)], env := [.earlyAccess a] }

/-- Each form of access; a micro-operation; and the last of the two micro-operations of a glyph of one pixel and its width. -/
theorem witness_EarlyAccess :
    ((early (.setArg .a1 5#16)).cfg.valid = true ∧ (early (.setArgVar .a1 1)).cfg.valid = true ∧
      (early (.getResult 0)).cfg.valid = true) ∧
    (∃ t, perform (.plot 0 0 .normal true) State.reset = .next t) ∧
    ∃ m t done, exec (.drawChar .normal 0x41#8) (start fontF1 31 15) = .next m ∧
      m.cur = done ++ [.setResult 5#32] ∧ performAll done { m with cur := [.setResult 5#32] } = .next t :=
  ⟨by decide +kernel, ⟨_, rfl⟩, _, _, _, rfl, rfl, rfl⟩

theorem witness_FetchWordRuns : State.reset.cfg.valid = true ∧ (Instr.flagRead 1#8).wf State.reset.cfg.tickWidth = true ∧
    (State.resetWith { Config.standard with wp := 33 }).cfg.valid = false ∧
    (State.resetWith { Config.standard with wp := 32 }).cfg.valid = true := by decide +kernel

/-- The machine with a micro-operation left, and about to accept a word: both change CUR. -/
theorem witness_WordsAcceptedOnlyWhenIdle :
    (∃ t, step { State.reset with cur := [.setResult 3#32] } = .next t ∧ t.cur ≠ [.setResult 3#32]) ∧
    (∃ t, step (presenting 0x00000801#32) = .next t ∧ t.cur ≠ []) :=
  ⟨⟨_, rfl, by decide⟩, ⟨_, rfl, by decide⟩⟩

/-- A write by an idle host, and one that does not wait. -/
theorem witness_ArgumentsWrittenOnlyByHost :
    (∃ t, step { State.reset with env := [.access (.setArg .a3 5#16)] } = .next t ∧
      (t.a0, t.a1, t.a2, t.a3) ≠ (0#16, 0#16, 0#16, 0#16)) ∧
    (∃ t, step (early (.setArg .a1 5#16)) = .next t ∧ (t.a0, t.a1, t.a2, t.a3) ≠ (0#16, 0#16, 0#16, 0#16)) :=
  ⟨⟨_, rfl, by decide⟩, ⟨_, rfl, by decide⟩⟩

theorem witness_StepsFinishTheCommand : State.reset.cfg.valid = true ∧ State.reset.env = [] ∧ State.reset.pend = 0#3 ∧
    State.reset.ctx = .main ∧ ([.fbWrite 63 0#8, .setResult 1#32] : List MicroOp).all (MicroOp.inRange State.reset.cfg) = true := by
  decide +kernel

theorem witness_RowLayout : 15 < 16 ∧ 1 < ({ Config.standard with hp := 2 } : Config).hp ∧ 3 < 4 * Config.standard.wp ∧
    7 < 8 := by decide

theorem witness_AddrIsBijective : pixelAddr Config.standard 31 15 = some (63, 0x01#8) ∧ 63 < Config.standard.fbBytes := by
  decide +kernel

/-- One panel with one byte of FB not 0xFF. -/
def oneByte : State := { start fontF1 31 15 with fb := [(63, 0xFE#8)] }

theorem witness_PlotFollowsTable : oneByte.fbWf ∧ pixelLit oneByte 31 15 = some true ∧ pixelLit oneByte 32 15 = none ∧
    ((30 : Int), (15 : Int)) ≠ (31, 15) := by decide +kernel

theorem witness_WritePixelCompletes : oneByte.fbWf ∧
    MicroOp.misses oneByte.cfg 62 (.plot oneByte.a0.toInt oneByte.a1.toInt .normal true) = true := by decide +kernel

theorem witness_ClearCompletes : oneByte.fbWf ∧ 63 < oneByte.cfg.fbBytes ∧ oneByte.cfg.fbBytes ≤ 64 := by decide +kernel

/-- A running machine, with a byte of FB, a command in progress, a flag and a phase. -/
def running : State :=
  { oneByte with
    cur := [.fbWrite 63 0#8, .readTickByte 3#8], flag0 := 1#8, tick := 7#32, rowEn := true, rowAddr := 3#2, phase := 0#2,
    out := [.latch] }

/-- The headers of F1, fixed, and of F2, proportional with two glyphs before the third. -/
theorem witness_GlyphTables :
    (fontRead (start fontF1 0 0) 0 = some 0#8 ∧ fontRead (start fontF1 0 0) 1 = some 0#8 ∧
      fontRead (start fontF1 0 0) 4 = some 0x41#8 ∧ fontRead (start fontF1 0 0) 5 = some 1#8 ∧
      fontRead (start fontF1 0 0) 2 = some 5#8) ∧
    (fontRead (start fontF2 0 0) 0 = some 0x10#8 ∧ fontRead (start fontF2 0 0) 1 = some 0#8 ∧
      fontRead (start fontF2 0 0) 4 = some 0x30#8 ∧ fontRead (start fontF2 0 0) 5 = some 3#8 ∧
      (∀ k, k < [2#8, 1#8].length → fontRead (start fontF2 0 0) (6 + k) = [2#8, 1#8][k]?) ∧
      fontRead (start fontF2 0 0) (6 + 2) = some 3#8) := by decide +kernel

/-- The width of F2's last glyph, of F1's only glyph, and of a code point past the last. -/
theorem witness_CharWidthCompletes :
    ((start fontF2 0 0).fontValid = true ∧ (0x30 ≤ 0x32 ∧ 0x32 < 0x30 + 3) ∧
      fontRead (start fontF2 0 0) (6 + (0x32 - 0x30)) = some 3#8) ∧
    ((start fontF1 0 0).fontValid = true ∧ (0x41 ≤ 0x41 ∧ 0x41 < 0x41 + 1) ∧ fontRead (start fontF1 0 0) 2 = some 5#8) ∧
    ¬ (0x41 ≤ 0x42 ∧ 0x42 < 0x41 + 1) := by decide +kernel

/-- Both edges of the early reject, and an unrenderable code point on the grid. -/
theorem witness_DrawCharDrawsNothing :
    ((start fontF1 32 0).fontValid = true ∧ (start fontF1 32 0).a0.toInt ≥ (start fontF1 32 0).cfg.gridWidth) ∧
    ((start fontF1 0 16).fontValid = true ∧ (start fontF1 0 16).a1.toInt ≥ (start fontF1 0 16).cfg.gridHeight) ∧
    ((start fontF1 31 15).fontValid = true ∧ (start fontF1 31 15).a0.toInt < (start fontF1 31 15).cfg.gridWidth ∧
      (start fontF1 31 15).a1.toInt < (start fontF1 31 15).cfg.gridHeight ∧ (0x42#8 : Byte) ≠ 0x20#8 ∧
      fontRead (start fontF1 31 15) 4 = some 0x41#8 ∧ fontRead (start fontF1 31 15) 5 = some 1#8 ∧
      ¬ (0x41 ≤ 0x42 ∧ 0x42 < 0x41 + 1)) := by decide +kernel

theorem witness_DrawCharSpace : (start fontF3 31 15).fbWf ∧ (start fontF3 31 15).fontValid = true ∧
    (start fontF3 31 15).a0.toInt < (start fontF3 31 15).cfg.gridWidth ∧
    (start fontF3 31 15).a1.toInt < (start fontF3 31 15).cfg.gridHeight ∧
    charWidth (start fontF3 31 15) 0x20#8 = some 3 ∧ fontHeight (start fontF3 31 15) = some 8 := by decide +kernel

theorem witness_DrawCharGlyph : (start fontF2 4 2).fbWf ∧ (start fontF2 4 2).fontValid = true ∧
    (start fontF2 4 2).a0.toInt < (start fontF2 4 2).cfg.gridWidth ∧
    (start fontF2 4 2).a1.toInt < (start fontF2 4 2).cfg.gridHeight ∧ (0x32#8 : Byte) ≠ 0x20#8 ∧
    glyphIndex (start fontF2 4 2) 0x32#8 = some (some 2) ∧ glyphWidth (start fontF2 4 2) 2 = some 3 ∧
    fontHeight (start fontF2 4 2) = some 12 ∧ glyphOffset (start fontF2 4 2) 2 (bytesPerColumn 12) = some 15 ∧
    (∀ j < 3, ∀ i < bytesPerColumn 12,
      (fontRead (start fontF2 4 2) (glyphByteOffset .columnMajor 15 3 (bytesPerColumn 12) j i)).isSome = true) := by
  decide +kernel

/-- A glyph byte past FONT_ROM makes the reads of a glyph fail. -/
theorem glyphReadsFail_of_byte {s : State} {c : Byte} {gi w h off j i : Nat} (hc : c ≠ spaceChar)
    (hgi : glyphIndex s c = some (some gi)) (hw : glyphWidth s gi = some w) (hh : fontHeight s = some h)
    (ho : glyphOffset s gi (bytesPerColumn h) = some off) (hj : j < w) (hi : i < bytesPerColumn h)
    (hr : fontRead s (glyphByteOffset s.cfg.glyphLayout off w (bytesPerColumn h) j i) = none) : glyphReadsFail s c := by
  unfold glyphReadsFail
  rw [if_neg hc]
  exact .inr ⟨gi, hgi, .inr (.inr ⟨w, h, hw, hh, .inr ⟨off, ho, j, hj, i, hi, hr⟩⟩)⟩

/-- F1 with the glyph cut after column 2, about to draw it. -/
def cutGlyph : State := { marquee false 0 0 0 with cfg := { Config.standard with fontRom := fontF1.take 9 }, text := [(0, 0x41#8)] }

theorem cutGlyph_readsFail : glyphReadsFail cutGlyph 0x41#8 :=
  glyphReadsFail_of_byte (gi := 0) (w := 5) (h := 8) (off := 6) (j := 3) (i := 0) (by decide) (by decide +kernel)
    (by decide +kernel) (by decide +kernel) (by decide +kernel) (by decide) (by decide) (by decide +kernel)

/-- A read past FONT_ROM of each of the five commands: CHAR_WIDTH in a cut header, the others in a cut glyph; a DRAW_CHAR off
the grid, which makes no read; the two fast shifts, whose entering glyph is the cut one; and the width table of a cut F2. -/
theorem witness_FontRangeFaults :
    (cutGlyph.fontValid = true ∧ cutGlyph.faultCode = faultNone ∧ cutGlyph.cur = []) ∧
    fontReadsFail (.charWidth 0x41#8) (start (fontF1.take 5) 0 0) ∧ fontReadsFail (.drawChar .normal 0x41#8) cutGlyph ∧
    fontReadsFail (.drawString .normal 1#8) cutGlyph ∧ fontReadsFail (.drawMarquee 1#8) cutGlyph ∧
    fontReadsFail .stepMarquee cutGlyph ∧ ¬ fontReadsFail (.drawChar .normal 0x41#8) (start (fontF1.take 9) 32 0) ∧
    shiftReadsFail cutGlyph (fun e => decide (e ≥ 32)) 27 0 [0x41#8] ∧
    shiftReadsFail cutGlyph (fun e => decide (e ≥ 0)) (-5) 0 [0x41#8] ∧
    (start (fontF1.take 5) 0 0).cfg.fontRomSize ≤ (start (fontF1.take 5) 0 0).fontBase.toNat + 5 ∧
    (fontRead (start (fontF2.take 8) 0 0) 0 = some 0x10#8 ∧ fontRead (start (fontF2.take 8) 0 0) 1 = some 0#8 ∧
      fontRead (start (fontF2.take 8) 0 0) 4 = some 0x30#8 ∧ fontRead (start (fontF2.take 8) 0 0) 5 = some 3#8 ∧
      (0x30 ≤ 0x32 ∧ 0x32 < 0x30 + 3) ∧ (start (fontF2.take 8) 0 0).cfg.fontRomSize ≤ 0 + (6 + (0x32 - 0x30))) :=
  have inString : stringReadsFail cutGlyph 0 0 [0x41#8] :=
    ⟨by decide +kernel, by decide +kernel, .inr ⟨8, by decide +kernel, by decide, 0, 0x41#8, rfl, by decide +kernel,
      cutGlyph_readsFail⟩⟩
  ⟨by decide +kernel, by unfold fontReadsFail; decide +kernel, ⟨by decide +kernel, by decide +kernel, cutGlyph_readsFail⟩,
    inString, .inr (.inr inString), inString, fun h => absurd h.1 (by decide +kernel),
    ⟨0, _, rfl, fun _ h => absurd h (Nat.not_lt_zero _), .inr ⟨5, by decide +kernel, by decide +kernel, by decide +kernel,
      by decide +kernel, cutGlyph_readsFail⟩⟩,
    ⟨0, _, rfl, fun _ h => absurd h (Nat.not_lt_zero _), .inr ⟨5, by decide +kernel, by decide +kernel, by decide +kernel,
      by decide +kernel, cutGlyph_readsFail⟩⟩, by decide +kernel⟩

theorem witness_FontNotSelectedFaults : usesFont .stepMarquee = true ∧ State.reset.fontValid = false ∧
    State.reset.faultCode = faultNone ∧ State.reset.cur = [] := by decide +kernel

/-- F1 and F2 lie inside FONT_ROM to the last byte; F2 without its last byte does not. -/
theorem witness_FittingFontNeverFaults : usesFont (.drawString .or 255#8) = true ∧ (start fontF1 0 0).fontValid = true ∧
    fontFits (start fontF1 0 0) = true ∧ fontFits (start fontF2 0 0) = true ∧
    fontFits (start (fontF2.take 20) 0 0) = false := by decide +kernel

theorem witness_TextWriteCompletes :
    (Memory.wf textUnlisted textSize (start fontF1 255 0).text = true ∧ (start fontF1 255 0).a0.toInt = (255 : Nat)) ∧
    (Memory.wf textUnlisted textSize (start fontF1 0 0).text = true ∧ (start fontF1 0 0).a0.toInt = (0 : Nat)) ∧
    (256 ≤ (start fontF1 256 0).a0.toInt ∧ (start fontF1 (-1) 0).a0.toInt < 0) ∧
    State.reset.faultCode = faultNone ∧ State.reset.cur = [] := by decide +kernel

/-- The columns 0..11 of "AA" in F1: five and a separator, twice. -/
theorem witness_DrawStringCompletes : (start fontF1 0 0).fontValid = true ∧ fontFits (start fontF1 0 0) = true ∧
    fontHeight (start fontF1 0 0) = some 8 ∧ stringAdvance (start fontF1 0 0) [0x41#8, 0x42#8, 0x41#8] = 12 := by
  decide +kernel

/-- The three rejects at their boundaries; two glyphs of F1 that end with the text; and the first of two that the right edge
ends. -/
theorem witness_StringLayout : fontFits (start fontF1 0 0) = true ∧ fontHeight (start fontF1 0 0) = some 8 ∧
    ((32 : Int) ≥ (start fontF1 0 0).cfg.gridWidth ∧ (16 : Int) ≥ (start fontF1 0 0).cfg.gridHeight ∧
      (-9 : Int) + ((8 : Nat) : Int) < 0) ∧
    ((31 : Int) < (start fontF1 0 0).cfg.gridWidth ∧ (15 : Int) < (start fontF1 0 0).cfg.gridHeight ∧
      (0 : Int) ≤ -8 + ((8 : Nat) : Int)) ∧
    (∀ c ∈ [0x41#8, 0x41#8], charWidth (start fontF1 0 0) c ≠ some 0) ∧
    (∀ k < 2, 25 + stringColumn (start fontF1 0 0) [0x41#8, 0x41#8] k < (start fontF1 0 0).cfg.gridWidth) ∧
    2 = [0x41#8, 0x41#8].length ∧
    (∀ k < 1, 26 + stringColumn (start fontF1 0 0) [0x41#8, 0x41#8] k < (start fontF1 0 0).cfg.gridWidth) ∧
    26 + stringColumn (start fontF1 0 0) [0x41#8, 0x41#8] 1 ≥ (start fontF1 0 0).cfg.gridWidth := by
  decide +kernel

theorem witness_StringSkipsZeroWidth : fontFits (start fontF1 0 0) = true ∧
    ([0x41#8, 0x42#8].filter fun c => charWidth (start fontF1 0 0) c != some 0) = [0x41#8] := by decide +kernel

theorem witness_ShapesComplete : oneByte.fbWf ∧
    (plotAll .toggle true (linePoints 0 0 3 0)).all (MicroOp.misses oneByte.cfg 63) = true := by decide +kernel

theorem witness_BoxOutline : (1 : Int) ≠ 3 ∧ (1 : Int) ≠ 2 ∧ ((1 : Int), (1 : Int)) ∈ boxPoints 1 1 3 2 ∧
    ((2 : Int), (1 : Int)) ∈ boxPoints 1 1 3 2 := by decide +kernel

/-- R192's circle of radius 3 has the offset (1, 3), not (1, 2) and not (2, 3); radius 1 is the other clause's. -/
theorem witness_CircleShape : (2 : Int) ≤ 3 ∧ ((9 : Int), (11 : Int)) ∈ circlePoints 8 8 3 ∧
    ((9 : Int), (10 : Int)) ∉ circlePoints 8 8 3 ∧ ((10 : Int), (11 : Int)) ∉ circlePoints 8 8 3 ∧ (1 : Int) ≤ 1 ∧
    ((8 : Int), (7 : Int)) ∈ circlePoints 8 8 (-1) := by decide +kernel

theorem witness_TestPatternCompletes : oneByte.fbWf ∧ oneByte.cfg.wp = 2 ^ 0 ∧ 31 < oneByte.cfg.gridWidth ∧
    15 < oneByte.cfg.gridHeight := by decide +kernel

theorem witness_DrawMarqueeCompletes : Memory.wf textUnlisted marqueeMax (marquee false 0 0 0).mqText = true ∧
    (marquee false 0 0 0).fontValid = true ∧ fontFits (marquee false 0 0 0) = true := by decide +kernel

/-- A step with no wrap, one just past the left edge, and the two fast shifts. -/
theorem witness_StepMarqueeCompletes : (marquee true 0 (-1) 0).fontValid = true ∧ fontFits (marquee true 0 (-1) 0) = true ∧
    ((marquee true 0 (-1) 0).cfg.marqueeFastShift = true ∧ (marquee true 0 (-1) 0).a0.toInt = -1) ∧
    (marquee true 0 1 0).a0.toInt = 1 ∧ (marquee true 0 1 0).a1.toInt = 0 ∧
    ¬ ((marquee false (-5) (-1) 0).mqOX + (marquee false (-5) (-1) 0).a0.toInt < -6) ∧
    (marquee false (-6) (-1) 0).mqOX + (marquee false (-6) (-1) 0).a0.toInt < -6 := by decide +kernel

theorem witness_MarqueePeriod : 38 ≤ 32 + 6 ∧ 0 ≤ 32 + 6 := by decide

/-- The edge columns of a pixel, the entering glyph of each shift (the second for the left, the first for the right), and a
text with none. -/
theorem witness_FastShiftMovesPixels :
    (oneByte.fbWf ∧ (0 : Int) ≤ 31 ∧ (31 : Int) < oneByte.cfg.gridWidth ∧ (15 : Int) < oneByte.cfg.gridHeight ∧
      fontFits oneByte = true) ∧
    entersAt oneByte (fun e => decide (e ≥ 32)) 24 [0x41#8, 0x41#8] 1 ∧
    entersAt oneByte (fun e => decide (e ≥ 0)) (-5) [0x41#8, 0x41#8] 0 ∧
    ∀ k, ¬ entersAt oneByte (fun e => decide (e ≥ 0)) (-6) [0x41#8] k := by
  refine ⟨by decide +kernel, ⟨⟨0x41#8, 5, by decide, by decide +kernel, by decide +kernel⟩, ?_⟩,
    ⟨⟨0x41#8, 5, by decide, by decide +kernel, by decide +kernel⟩, fun _ h => absurd h (Nat.not_lt_zero _)⟩, ?_⟩
  · intro j hj c w hc hw
    obtain rfl : j = 0 := by omega
    cases hc
    obtain rfl := Option.some.inj ((show charWidth oneByte 0x41#8 = some 5 by decide +kernel).symm.trans hw)
    decide +kernel
  · rintro k ⟨⟨c, w, hc, hw, he⟩, -⟩
    match k with
    | 0 =>
      cases hc
      obtain rfl := Option.some.inj ((show charWidth oneByte 0x41#8 = some 5 by decide +kernel).symm.trans hw)
      exact absurd he (by decide +kernel)
    | k + 1 => simp at hc

/-- Both ranges of IDX meet at 4; an idle machine, with the saved enable in a variable before and after the lanes'. -/
theorem witness_TickReadsComplete : (3#8 : Byte).toNat < State.reset.cfg.tickWidth.bits / 8 ∧
    State.reset.cfg.tickWidth.bits / 8 ≤ (4#8 : Byte).toNat ∧ State.reset.faultCode = faultNone ∧ State.reset.cur = [] ∧
    State.reset.tick.toNat < 2 ^ State.reset.cfg.tickWidth.bits ∧ State.reset.cfg.valid = true ∧
    idle State.reset = true ∧ 1 < 2 ∧ 2 + State.reset.cfg.tickWidth.lanes ≤ 6 := by decide +kernel

theorem witness_TickElapsed : ({ State.reset with tick := 0xFFFFFFFF#32 } : State).tick.toNat < 2 ^ TickWidth.w32.bits ∧
    3 * State.reset.cfg.tickInc < 2 ^ TickWidth.w32.bits := by decide +kernel

theorem witness_CriticalSectionsNest : (∃ s1 s2 s3 s4,
    perform (.saveDisableIe .timer) { State.reset with ie := 0b001#3 } = .next s1 ∧
    perform (.saveDisableIe .timer) s1 = .next s2 ∧ perform (.restoreIe .timer (s2.result.getLsbD 0)) s2 = .next s3 ∧
    perform (.restoreIe .timer (s1.result.getLsbD 0)) s3 = .next s4) ∧
    (State.reset.cfg.valid = true ∧ idle { State.reset with ie := 0b001#3 } = true ∧
      State.reset.faultCode = faultNone ∧ 0 ≠ 1) := ⟨⟨_, _, _, _, rfl, rfl, rfl, rfl⟩, by decide +kernel⟩

theorem witness_FlagsComplete : 2 ≤ (2#8 : Byte).toNat ∧ State.reset.faultCode = faultNone ∧ State.reset.cur = [] ∧
    State.reset.cfg.valid = true ∧ idle { State.reset with ie := 0b010#3, flag0 := 1#8 } = true ∧ 0 ≠ 1 := by
  decide +kernel

theorem witness_TimerHandlerScans : State.reset.ctx = .main ∧ State.reset.busBusy = false ∧
    ({ State.reset with busBusy := true } : State).ctx = .main := by decide

theorem witness_DisplayShowsTheRows : oneByte.busBusy = false ∧ pixelLit oneByte ((31 : Nat) : Int) ((15 : Nat) : Int) = some true ∧
    pixelLit oneByte ((0 : Nat) : Int) ((0 : Nat) : Int) = some false := by decide +kernel

theorem witness_FourScansRefreshAllRows : ({ State.reset with phase := 3#2 } : State).busBusy = false := by decide

/-- A request of a source that is pending, and a TIMER request that comes in time. -/
theorem witness_RequestSetsPending : State.reset.cfg.valid = true ∧
    ({ State.reset with env := [.request .edge1], pend := 0b100#3 } : State).env = .request .edge1 :: [] ∧
    pendBit { State.reset with env := [.request .edge1], pend := 0b100#3 } .edge1 = true ∧
    timerInTime { State.reset with env := [.request .timer] } = true ∧
    timerInTime { State.reset with env := [.request .timer], pend := 0b001#3 } = false := by decide +kernel

/-- Each of the four branches: all eligible, TIMER masked, EDGE1 alone, and none, with a micro-operation to perform. -/
theorem witness_DispatchIsObligatory : State.reset.cfg.valid = true ∧ State.reset.env = [] ∧ State.reset.ctx = .main ∧
    nextSource { State.reset with pend := 0b111#3, ie := 0b111#3 } = some .timer ∧
    nextSource { State.reset with pend := 0b111#3, ie := 0b110#3 } = some .edge0 ∧
    nextSource { State.reset with pend := 0b101#3, ie := 0b110#3 } = some .edge1 ∧
    ((∀ n, ¬ (pendBit { running with pend := 0b001#3 } n = true ∧ ieBit { running with pend := 0b001#3 } n = true)) ∧
      running.cur = .fbWrite 63 0#8 :: [.readTickByte 3#8]) :=
  ⟨by decide +kernel, rfl, rfl, by decide +kernel, by decide +kernel, by decide +kernel,
    fun n => by cases n <;> decide +kernel, rfl⟩

theorem witness_HandlersAreTransparent : ∃ t, perform (.plot 0 0 .normal true) State.reset = .next t := ⟨_, rfl⟩

/-- A step that enters the timer handler, and one that performs a micro-operation: each excludes one of the two clauses'
hypotheses and meets the other's. -/
theorem witness_OneWriterContext :
    (∃ t, step { State.reset with pend := 1#3, ie := 1#3 } = .next t) ∧
    ¬ (nextSource { State.reset with pend := 1#3, ie := 1#3 } = none) ∧
    (∃ t, step { State.reset with cur := [.setResult 3#32] } = .next t) ∧
    ¬ (nextSource { State.reset with cur := [.setResult 3#32] } = some .timer) :=
  ⟨⟨_, rfl⟩, by decide, ⟨_, rfl⟩, by decide⟩

/-- A step that sets a flag and one that clears the other, with nothing arriving. -/
theorem witness_FlagWriters :
    (∃ t, step { State.reset with pend := 2#3, ie := 2#3 } = .next t ∧ t.flag0 = 1#8) ∧
    (nextSource { State.reset with pend := 2#3, ie := 2#3 } = some .edge0 ∧
      nextSource { State.reset with pend := 4#3, ie := 4#3 } = some .edge1) ∧
    (∃ t, step { State.reset with cur := [.clearFlag 1], flag1 := 1#8 } = .next t ∧ t.flag1 = 0#8) ∧
    (nextSource { State.reset with cur := [.clearFlag 1] } = none ∧ State.reset.env = [] ∧ State.reset.ctx = .main) :=
  ⟨⟨_, rfl, rfl⟩, by decide +kernel, ⟨_, rfl, rfl⟩, by decide +kernel⟩

theorem witness_FaultsArePrecise : State.reset.faultCode = faultNone := by decide

theorem witness_FaultStopsMainContext :
    (∃ t, step { presenting 0x00000801#32 with faultCode := 3#8, faultCmd := 0x00410005#32 } = .next t) ∧ (3#8 : Byte) ≠ faultNone ∧
    (presenting 0x00000801#32).cur = [] ∧
    (State.reset.cfg.valid = true ∧ ({ State.reset with env := [.readFault .code 0] } : State).env = [.readFault .code 0] ∧
      ({ State.reset with env := [.readFault .cmd 1] } : State).env = [.readFault .cmd 1]) :=
  ⟨⟨_, rfl⟩, by decide, by decide, by decide +kernel⟩

theorem witness_ResetHasInv : Config.standard.valid = true ∧ ({ Config.standard with wp := 4, hp := 8 } : Config).valid = true := by
  decide +kernel

theorem witness_StepKeepsInv : running.Inv ∧ ∃ t, step running = .next t :=
  ⟨by decide +kernel, _, rfl⟩

theorem witness_InvStepsOn : running.Inv ∧ State.reset.Inv := by decide +kernel

end Sys2Proof.Tests
end

section
/-! The family of 20_memory.md: where a framebuffer row holds the global rows and columns (R66). -/

namespace Sys2Proof.Machine

/-! ## The address of a pixel of the grid -/

/-- The panel-remapped column of R63 is the global column moved right by the panels of the panel rows above: remapping
splits `x` at the panel width and joins it again. `q` is WP times the pixel's panel row. -/
theorem remappedColumn_eq (x q : Nat) : x % 32 + (x / 32 + q) * 32 = x + 8 * (4 * q) := by
  omega

/-- R63 on the grid, in terms of global rows: panel row `y / 16` begins GROWB times its number into the framebuffer row. -/
theorem pixelAddr_of_lt {c : Config} {x y : Nat} (hx : x < c.gridWidth) (hy : y < c.gridHeight) :
    pixelAddr c x y = some (x / 8 + c.globalRowBytes * (y / 16) + y % 16 * c.rowBytes, pixelMask (x % 8)) := by
  refine pixelAddr_eq_some.mpr ⟨by omega, ?_, ?_⟩
  · rw [Int.toNat_natCast, Int.toNat_natCast, remappedColumn_eq, Nat.add_mul_div_left _ _ (by decide),
      Config.globalRowBytes, Nat.mul_assoc]
  · rw [Int.toNat_natCast, Int.toNat_natCast, remappedColumn_eq, Nat.add_mul_mod_self_left]

/-- Settles O11: with `x = 8b + k` and `y = y' + 16*py`, the quotients and remainders of R63's address are `b`, `k`,
`py` and `y'`. -/
theorem rowLayout : Obligations.RowLayout := by
  intro c y' py b k hy' hpy hb hk
  have onGridX : 8 * b + k < c.gridWidth := by
    simp only [Config.gridWidth, panelWidth]
    omega
  have onGridY : y' + 16 * py < c.gridHeight := by
    simp only [Config.gridHeight, panelHeight]
    omega
  have byteColumn : (8 * b + k) / 8 = b := by omega
  have bitColumn : (8 * b + k) % 8 = k := by omega
  have panelRow : (y' + 16 * py) / 16 = py := by omega
  have fbRow : (y' + 16 * py) % 16 = y' := by omega
  rw [pixelAddr_of_lt onGridX onGridY, byteColumn, bitColumn, panelRow, fbRow]
  simp only [Config.globalRowBytes, Config.rowBytes, Config.panels, pixelMask]
  congr 2
  ring

end Sys2Proof.Machine
end

section
/-! The family of 30_encoding.md: what a word decodes to, in terms of its fields and the index ranges. -/

namespace Sys2Proof

/-! ## What the decoder answers -/

/-- A word decodes to a command exactly when its fields give that command (R91, R97) and the index is in range (R95). -/
theorem decode_eq_some_iff {tw : TickWidth} {w : Word} {i : Instr} :
    decode tw w = some i ↔ decodeFields (Fields.unpack w) = some i ∧ i.wf tw = true := by
  unfold decode
  cases decodeFields (Fields.unpack w) with
  | none => simp
  | some j =>
    simp only [Option.ite_none_right_eq_some, Option.some.injEq]
    exact ⟨fun ⟨hwf, hij⟩ => ⟨hij, hij ▸ hwf⟩, fun ⟨hij, hwf⟩ => ⟨hij ▸ hwf, hij⟩⟩

/-- R100: a word whose fields give a command with its index in range decodes to that command. -/
theorem decode_of_fields {tw : TickWidth} {w : Word} {i : Instr} (hf : decodeFields (Fields.unpack w) = some i)
    (hwf : i.wf tw = true) : decode tw w = some i :=
  decode_eq_some_iff.mpr ⟨hf, hwf⟩

/-- R99: a word whose fields give no command is illegal. -/
theorem decode_eq_none_of_fields {tw : TickWidth} {w : Word} (hf : decodeFields (Fields.unpack w) = none) :
    decode tw w = none := by
  rw [decode, hf]

/-- R99: a word whose fields give a command with an index out of range is illegal. -/
theorem decode_eq_none_of_not_wf {tw : TickWidth} {w : Word} {i : Instr} (hf : decodeFields (Fields.unpack w) = some i)
    (hwf : i.wf tw = false) : decode tw w = none :=
  Option.eq_none_iff_forall_ne_some.mpr fun j hj => by
    obtain ⟨hfj, hwfj⟩ := decode_eq_some_iff.mp hj
    obtain rfl := Option.some.inj (hf.symm.trans hfj)
    exact Bool.false_ne_true (hwf.symm.trans hwfj)

/-- R99: a word with a nonzero RSV is illegal, whatever its other fields. -/
theorem decode_eq_none_of_rsv {tw : TickWidth} {w : Word} (hr : (Fields.unpack w).rsv ≠ 0#8) : decode tw w = none :=
  decode_eq_none_of_fields (by rw [decodeFields, if_pos hr])

/-- Settles O4. TICK_WIDTH bounds the index of TICK_READ_BYTE only, so the fields of every other word settle its meaning
for every `tw`: a legal word's fields give its command, with the index in range. The first three illegal words have fields
that give no command, the fourth has a nonzero RSV, and the last is a FLAG_READ whose index is N_EDGE. -/
theorem sampleWords : Obligations.SampleWords := by
  intro tw
  have reservedMode : decode tw 0x00000501#32 = none := decode_eq_none_of_fields rfl
  have unusedField : decode tw 0x00000803#32 = none := decode_eq_none_of_fields rfl
  have reservedSrc : decode tw 0x0000C012#32 = none := decode_eq_none_of_fields rfl
  have nonzeroRsv : decode tw 0x01000002#32 = none := decode_eq_none_of_rsv (by decide)
  have indexOutOfRange : decode tw 0x00020014#32 = none := decode_eq_none_of_not_wf (i := .flagRead 2#8) rfl rfl
  exact ⟨decode_of_fields rfl rfl, decode_of_fields rfl rfl, decode_of_fields rfl rfl, decode_of_fields rfl rfl,
    decode_of_fields rfl rfl, decode_of_fields rfl rfl, decode_of_fields rfl rfl, decode_of_fields rfl rfl,
    decode_of_fields rfl rfl, decode_of_fields rfl rfl, decode_of_fields rfl rfl, decode_of_fields rfl rfl,
    decode_of_fields rfl rfl, decode_of_fields rfl rfl, decode_of_fields rfl rfl, decode_of_fields rfl rfl,
    decode_of_fields rfl rfl, reservedMode, unusedField, reservedSrc, nonzeroRsv, indexOutOfRange⟩

end Sys2Proof
end

section
/-! The family of 40_framebuffer.md: what `Compose` makes of each bit of a byte (R122 to R126), and what a `Plot` does
to the pixels of the grid (R129). -/

namespace Sys2Proof.Machine

/-! ## The compositing modes, an equation per case (R122 to R126) -/

@[simp] theorem compose_normal_true (n : NorVariant) (b m : Byte) : compose n .normal b m true = b &&& ~~~m := rfl
@[simp] theorem compose_normal_false (n : NorVariant) (b m : Byte) : compose n .normal b m false = b ||| m := rfl
@[simp] theorem compose_inverse_true (n : NorVariant) (b m : Byte) : compose n .inverse b m true = b ||| m := rfl
@[simp] theorem compose_inverse_false (n : NorVariant) (b m : Byte) : compose n .inverse b m false = b &&& ~~~m := rfl
@[simp] theorem compose_toggle_true (n : NorVariant) (b m : Byte) : compose n .toggle b m true = b ^^^ m := rfl
@[simp] theorem compose_toggle_false (n : NorVariant) (b m : Byte) : compose n .toggle b m false = b := rfl
@[simp] theorem compose_or_true (n : NorVariant) (b m : Byte) : compose n .or b m true = b &&& ~~~m := rfl
@[simp] theorem compose_or_false (n : NorVariant) (b m : Byte) : compose n .or b m false = b := rfl

@[simp] theorem compose_nor_false (n : NorVariant) (b m : Byte) : compose n .nor b m false = b := by
  cases n <;> rfl

theorem compose_nor_doc_true (b m : Byte) :
    compose .doc .nor b m true = if b &&& m ≠ 0#8 then b &&& ~~~m else b := by
  simp [compose]

theorem compose_nor_library_true (b m : Byte) :
    compose .library .nor b m true = if b &&& m = 0#8 then b ||| m else b := by
  simp [compose]

/-- Clearing bits that are already clear changes nothing. -/
theorem and_not_eq_self_of_and_eq_zero {b m : Byte} (h : b &&& m = 0#8) : b &&& ~~~m = b := by
  apply BitVec.eq_of_getLsbD_eq
  intro l hl
  have hbit : (b &&& m).getLsbD l = false := by simp [h]
  rw [BitVec.getLsbD_and] at hbit
  cases hb : b.getLsbD l <;> simp_all

/-- Under DOC the test of Nor spares only bytes that Or would leave as they are. -/
theorem compose_nor_doc_eq_or (b m : Byte) (v : Bool) :
    compose .doc .nor b m v = compose .doc .or b m v := by
  cases v with
  | false => simp
  | true =>
    rw [compose_nor_doc_true, compose_or_true]
    split
    · rfl
    · rename_i h
      exact (and_not_eq_self_of_and_eq_zero (not_not.mp h)).symm

/-- Settles O13, from the equation of each case. -/
theorem composeModes : Obligations.ComposeModes := fun n b m =>
  ⟨compose_normal_true n b m, compose_normal_false n b m, compose_inverse_false n b m, compose_inverse_true n b m,
    compose_toggle_true n b m, compose_toggle_false n b m, compose_or_true n b m, compose_or_false n b m,
    compose_nor_doc_true b m, compose_nor_library_true b m, compose_nor_false n b m, compose_nor_doc_eq_or b m⟩

/-! ## Composing, bit by bit -/

/-- All that composing can do: clear the bits of the mask, set them, flip them, or leave the byte. -/
theorem compose_cases (n : NorVariant) (mode : Mode) (b m : Byte) (v : Bool) :
    compose n mode b m v = b &&& ~~~m ∨ compose n mode b m v = b ||| m ∨ compose n mode b m v = b ^^^ m ∨
      compose n mode b m v = b := by
  cases mode with
  | normal => cases v <;> simp
  | inverse => cases v <;> simp
  | toggle => cases v <;> simp
  | or => cases v <;> simp
  | nor =>
    cases v with
    | false => simp
    | true =>
      cases n with
      | doc => simp [compose_nor_doc_eq_or]
      | library =>
        rw [compose_nor_library_true]
        split <;> simp

/-- "No other bit of the byte changes" (R129). -/
theorem compose_getLsbD_other (n : NorVariant) (mode : Mode) (b : Byte) {m : Byte} (v : Bool) {l : Nat} (hl : l < 8)
    (hm : m.getLsbD l = false) : (compose n mode b m v).getLsbD l = b.getLsbD l := by
  obtain h | h | h | h := compose_cases n mode b m v <;> rw [h]
  · rw [BitVec.getLsbD_and, BitVec.getLsbD_not, hm, decide_eq_true hl, Bool.not_false, Bool.and_true, Bool.and_true]
  · rw [BitVec.getLsbD_or, hm, Bool.or_false]
  · rw [BitVec.getLsbD_xor, hm, Bool.xor_false]

/-- A byte and a mask of one bit have no bit in common exactly when the byte's bit is clear. -/
theorem and_twoPow_eq_zero_iff {b : Byte} {j : Nat} (hj : j < 8) :
    b &&& BitVec.twoPow 8 j = 0#8 ↔ b.getLsbD j = false := by
  constructor
  · intro h
    simpa [hj] using congrArg (BitVec.getLsbD · j) h
  · intro h
    rw [BitVec.and_twoPow, h]
    rfl

/-- The table of R129 on the stored bit, which is clear when the pixel is lit (R120). -/
theorem compose_getLsbD_same (n : NorVariant) (mode : Mode) (b : Byte) (v : Bool) {j : Nat} (hj : j < 8) :
    (compose n mode b (BitVec.twoPow 8 j) v).getLsbD j = !litAfter n mode v (!b.getLsbD j) := by
  cases mode with
  | normal => cases v <;> simp [litAfter, hj]
  | inverse => cases v <;> simp [litAfter, hj]
  | toggle => cases v <;> simp [litAfter, hj]
  | or => cases v <;> simp [litAfter, hj]
  | nor =>
    cases v with
    | false => simp [litAfter]
    | true =>
      cases n with
      | doc => simp [litAfter, hj, compose_nor_doc_eq_or]
      | library =>
        rw [compose_nor_library_true]
        simp only [and_twoPow_eq_zero_iff hj]
        split
        · simp [litAfter, hj]
        · simp_all [litAfter]

/-! ## Two pixels never share a bit -/

/-- MASK[k] is the one bit 7 - k (R64). -/
theorem pixelMask_eq_twoPow : ∀ {k : Nat}, k < 8 → pixelMask k = BitVec.twoPow 8 (7 - k) := by
  decide

theorem pixelMask_inj : ∀ k < 8, ∀ k' < 8, pixelMask k = pixelMask k' → k = k' := by
  decide

/-- R63 inverted: a pixel with an address has the coordinates of a pixel of the grid. -/
theorem exists_of_pixelAddr {c : Config} {x y : Int} {i : Nat} {m : Byte} (h : pixelAddr c x y = some (i, m)) :
    ∃ X Y : Nat, x = X ∧ y = Y ∧ X < c.gridWidth ∧ Y < c.gridHeight ∧
      i = X / 8 + c.globalRowBytes * (Y / 16) + Y % 16 * c.rowBytes ∧ m = pixelMask (X % 8) := by
  obtain ⟨⟨hx, hy, hxw, hyh⟩, -⟩ := pixelAddr_eq_some.mp h
  lift x to ℕ using hx
  lift y to ℕ using hy
  have hX : x < c.gridWidth := by omega
  have hY : y < c.gridHeight := by omega
  rw [pixelAddr_of_lt hX hY, Option.some.injEq, Prod.mk.injEq] at h
  obtain ⟨rfl, rfl⟩ := h
  exact ⟨x, y, rfl, rfl, hX, hY, rfl, rfl⟩

/-- A number written with a digit below `g` has one such digit and one quotient. -/
theorem digit_unique {g a a' q q' : Nat} (ha : a < g) (ha' : a' < g) (h : a + g * q = a' + g * q') :
    a = a' ∧ q = q' := by
  have hg : 0 < g := by omega
  obtain ⟨hq, hr⟩ := (Nat.div_mod_unique hg).mpr ⟨h, ha⟩
  obtain ⟨hq', hr'⟩ := (Nat.div_mod_unique hg).mpr ⟨rfl, ha'⟩
  exact ⟨hr.symm.trans hr', hq.symm.trans hq'⟩

/-- The byte index of R63 has three digits: the column byte below GROWB, the panel row below HP, and the framebuffer
row. -/
theorem byteIndex_unique {c : Config} {X Y X' Y' : Nat} (hX : X < c.gridWidth) (hX' : X' < c.gridWidth)
    (hY : Y < c.gridHeight) (hY' : Y' < c.gridHeight)
    (h : X / 8 + c.globalRowBytes * (Y / 16) + Y % 16 * c.rowBytes =
      X' / 8 + c.globalRowBytes * (Y' / 16) + Y' % 16 * c.rowBytes) : X / 8 = X' / 8 ∧ Y = Y' := by
  simp only [Config.gridWidth, Config.gridHeight, panelWidth, panelHeight] at hX hX' hY hY'
  have asDigits : ∀ a q r : Nat, a + c.globalRowBytes * q + r * c.rowBytes =
      a + c.globalRowBytes * (q + c.hp * r) := fun a q r => by
    simp only [Config.globalRowBytes, Config.rowBytes, Config.panels]
    ring
  have columnByte_lt : ∀ x, x < 32 * c.wp → x / 8 < c.globalRowBytes := fun x hx => by
    rw [Config.globalRowBytes]
    omega
  rw [asDigits, asDigits] at h
  obtain ⟨hcol, hrest⟩ := digit_unique (columnByte_lt X hX) (columnByte_lt X' hX') h
  obtain ⟨hpanel, hrow⟩ := digit_unique (by omega) (by omega) hrest
  omega

/-- R63 gives different pixels different bits. -/
theorem pixelAddr_unique {c : Config} {x y x' y' : Int} {i : Nat} {m : Byte} (h : pixelAddr c x y = some (i, m))
    (h' : pixelAddr c x' y' = some (i, m)) : x = x' ∧ y = y' := by
  obtain ⟨X, Y, rfl, rfl, hX, hY, hi, hm⟩ := exists_of_pixelAddr h
  obtain ⟨X', Y', rfl, rfl, hX', hY', hi', hm'⟩ := exists_of_pixelAddr h'
  obtain ⟨hcol, hrow⟩ := byteIndex_unique hX hX' hY hY' (hi.symm.trans hi')
  have hbit : X % 8 = X' % 8 :=
    pixelMask_inj _ (Nat.mod_lt X (by decide)) _ (Nat.mod_lt X' (by decide)) (hm.symm.trans hm')
  omega

/-- The mask of a pixel's address is one bit (R63, R64). -/
theorem exists_bit_of_pixelAddr {c : Config} {x y : Int} {i : Nat} {m : Byte} (h : pixelAddr c x y = some (i, m)) :
    ∃ j < 8, m = BitVec.twoPow 8 j := by
  obtain ⟨X, -, -, -, -, -, -, rfl⟩ := exists_of_pixelAddr h
  exact ⟨7 - X % 8, by omega, pixelMask_eq_twoPow (Nat.mod_lt X (by decide))⟩

/-! ## The stored bit of a pixel -/

@[simp] theorem pixelLit_eq_none {s : State} {x y : Int} : pixelLit s x y = none ↔ pixelAddr s.cfg x y = none := by
  unfold pixelLit
  split <;> simp [*]

/-- R120: a pixel of the grid is lit exactly when its bit is clear. -/
theorem pixelLit_of_pixelAddr {s : State} {x y : Int} {i j : Nat} (hj : j < 8)
    (h : pixelAddr s.cfg x y = some (i, BitVec.twoPow 8 j)) : pixelLit s x y = some (!(fbRead s i).getLsbD j) := by
  simp only [pixelLit, h, Option.some.injEq]
  rw [Bool.eq_iff_iff, beq_iff_eq, and_twoPow_eq_zero_iff hj, Bool.not_eq_true']

theorem fbRead_fbWrite_same {s : State} (h : s.fbWf) (i : Nat) (v : Byte) : fbRead (fbWrite s i v) i = v :=
  Memory.read_write_same h

theorem fbRead_fbWrite_other (s : State) {i a : Nat} (v : Byte) (h : i ≠ a) : fbRead (fbWrite s i v) a = fbRead s a :=
  Memory.read_write_other s.fb h

/-! ## What a plot does to the pixels (R129) -/

/-- A plot changes its pixel as the table of R129 says; off the grid there is no pixel to change. -/
theorem pixelLit_plot_same {s : State} (x y : Int) (mode : Mode) (v : Bool) (hwf : s.fbWf) :
    pixelLit (plot s x y mode v) x y = (pixelLit s x y).map (litAfter s.cfg.norVariant mode v) := by
  cases ha : pixelAddr s.cfg x y with
  | none => rw [plot_off mode v ha, pixelLit_eq_none.mpr ha, Option.map_none]
  | some p =>
    obtain ⟨i, m⟩ := p
    obtain ⟨j, hj, rfl⟩ := exists_bit_of_pixelAddr ha
    rw [plot_on mode v ha, pixelLit_of_pixelAddr hj ha, pixelLit_of_pixelAddr hj (by rwa [fbWrite_cfg]),
      fbRead_fbWrite_same hwf, compose_getLsbD_same _ _ _ _ hj, Bool.not_not, Option.map_some]

/-- A plot leaves every other pixel as it was: its bit lies in another byte, or is another bit of the byte written. -/
theorem pixelLit_plot_other {s : State} {x y x' y' : Int} (mode : Mode) (v : Bool) (hwf : s.fbWf)
    (hne : (x', y') ≠ (x, y)) : pixelLit (plot s x y mode v) x' y' = pixelLit s x' y' := by
  cases ha : pixelAddr s.cfg x y with
  | none => rw [plot_off mode v ha]
  | some p =>
    obtain ⟨i, m⟩ := p
    rw [plot_on mode v ha]
    cases ha' : pixelAddr s.cfg x' y' with
    | none => rw [pixelLit_eq_none.mpr ha', pixelLit_eq_none, fbWrite_cfg, ha']
    | some p' =>
      obtain ⟨i', m'⟩ := p'
      obtain ⟨j, hj, rfl⟩ := exists_bit_of_pixelAddr ha
      obtain ⟨j', hj', rfl⟩ := exists_bit_of_pixelAddr ha'
      rw [pixelLit_of_pixelAddr hj' ha', pixelLit_of_pixelAddr hj' (by rwa [fbWrite_cfg])]
      by_cases hi : i = i'
      · subst hi
        have hbits : j ≠ j' := by
          rintro rfl
          obtain ⟨rfl, rfl⟩ := pixelAddr_unique ha ha'
          exact hne rfl
        have hmask : (BitVec.twoPow 8 j).getLsbD j' = false := by simp [BitVec.getLsbD_twoPow, hbits]
        rw [fbRead_fbWrite_same hwf, compose_getLsbD_other _ _ _ _ hj' hmask]
      · rw [fbRead_fbWrite_other s _ hi]

/-- Settles O14: on the pixel of the plot, on every other pixel, and off the grid. -/
theorem plotFollowsTable : Obligations.PlotFollowsTable := fun _ x y mode v hwf =>
  ⟨pixelLit_plot_same x y mode v hwf, fun _ _ hne => pixelLit_plot_other mode v hwf hne,
    fun hoff => plot_off mode v (pixelLit_eq_none.mp hoff)⟩

end Sys2Proof.Machine
end

section
/-! The family of 41_font.md: which code points are renderable (R143), and where a glyph's width and bitmap are, in a
fixed-width and in a proportional font (R144). -/

namespace Sys2Proof.Machine

/-- R142: the two bytes of `length` settle whether the font is fixed-width. -/
theorem fontFixed_eq_some {s : State} {l0 l1 : Byte} (h0 : fontRead s 0 = some l0) (h1 : fontRead s 1 = some l1) :
    fontFixed s = some (decide (l0 = 0#8 ∧ l1 = 0#8)) := by
  simp [fontFixed, h0, h1, beq_eq_decide]

/-- R143: the code points from `first` on, `count` of them, are renderable. -/
theorem glyphIndex_eq_some {s : State} {first count : Byte} (h4 : fontRead s 4 = some first)
    (h5 : fontRead s 5 = some count) (c : Byte) : glyphIndex s c = some
      (if first.toNat ≤ c.toNat ∧ c.toNat < first.toNat + count.toNat then some (c.toNat - first.toNat) else none) := by
  simp only [glyphIndex, h4, h5, Option.bind_eq_bind, Option.bind_some]
  split <;> rfl

/-! ## GlyphWidth and GlyphOffset, an equation per kind of font (R144) -/

/-- In a fixed-width font every glyph has the width of header byte 2. -/
theorem glyphWidth_of_fixed {s : State} (hf : fontFixed s = some true) (gi : Nat) :
    glyphWidth s gi = (fontRead s 2).map BitVec.toNat := by
  rw [glyphWidth, hf]
  exact (Option.map_eq_bind ..).symm

/-- In a proportional font each glyph has its own byte of the width table. -/
theorem glyphWidth_of_proportional {s : State} (hp : fontFixed s = some false) (gi : Nat) :
    glyphWidth s gi = (fontRead s (6 + gi)).map BitVec.toNat := by
  rw [glyphWidth, hp]
  exact (Option.map_eq_bind ..).symm

/-- In a fixed-width font the bitmaps follow the header, all of one size. -/
theorem glyphOffset_of_fixed {s : State} {w : Byte} (hf : fontFixed s = some true) (h2 : fontRead s 2 = some w)
    (gi bpc : Nat) : glyphOffset s gi bpc = some (6 + gi * bpc * w.toNat) := by
  rw [glyphOffset, hf, h2]
  rfl

/-- In a proportional font the bitmaps follow the width table, each as long as its glyph is wide. -/
theorem glyphOffset_of_proportional {s : State} {count : Byte} {gi t : Nat} (hp : fontFixed s = some false)
    (h5 : fontRead s 5 = some count) (ht : widthSum s gi = some t) (bpc : Nat) :
    glyphOffset s gi bpc = some (6 + count.toNat + bpc * t) := by
  rw [glyphOffset, hp, h5, ht]
  rfl

/-- The sum of R144 over the first `n` widths: it is one of numbers, not of bytes, so it does not wrap. -/
theorem widthSum_eq_sum_take {s : State} {ws : List Byte} (hr : ∀ k < ws.length, fontRead s (6 + k) = ws[k]?) {n : Nat}
    (hn : n ≤ ws.length) : widthSum s n = some ((ws.take n).map BitVec.toNat).sum := by
  induction n with
  | zero => rfl
  | succ n ih =>
    have hlast : fontRead s (6 + n) = some ws[n] := (hr n hn).trans (List.getElem?_eq_getElem hn)
    rw [widthSum, ih (Nat.le_of_succ_le hn), hlast, ← List.take_concat_get' ws n hn, List.map_append, List.sum_append,
      List.map_singleton, List.sum_singleton]
    rfl

/-- The widths before a glyph, excluding the glyph itself. -/
theorem widthSum_length {s : State} {ws : List Byte} (hr : ∀ k < ws.length, fontRead s (6 + k) = ws[k]?) :
    widthSum s ws.length = some (ws.map BitVec.toNat).sum := by
  rw [widthSum_eq_sum_take hr le_rfl, List.take_length]

/-- Settles O18: the renderable code points, then the tables of each kind of font. -/
theorem glyphTables : Obligations.GlyphTables := by
  intro s l0 l1 first count h0 h1 h4 h5
  have kind := fontFixed_eq_some h0 h1
  refine ⟨glyphIndex_eq_some h4 h5, ?fixed, ?proportional⟩
  case fixed =>
    intro hl w gi bpc h2
    rw [decide_eq_true hl] at kind
    exact ⟨by rw [glyphWidth_of_fixed kind, h2, Option.map_some], glyphOffset_of_fixed kind h2 gi bpc⟩
  case proportional =>
    rintro hl ws _ bpc w hr rfl hw
    rw [decide_eq_false hl] at kind
    exact ⟨by rw [glyphWidth_of_proportional kind, hw, Option.map_some],
      glyphOffset_of_proportional kind h5 (widthSum_length hr) bpc⟩

end Sys2Proof.Machine
end

section
/-! The family of 43_scanout.md: the bytes of one scan in emission order, and what the timer handler leaves (R221, R223). -/

namespace Sys2Proof.Machine

/-! ## The bytes of one scan (R221) -/

/-- Visiting the bands 3, 2, 1, 0 of each byte column in turn is one count, whose quotient by four is the column and whose
remainder runs against the band. -/
theorem flatMap_bands_eq_map {α : Type} (g : Nat → Nat → α) (columns : Nat) :
    ((List.range columns).flatMap fun i => [3, 2, 1, 0].map (g i)) =
      (List.range (4 * columns)).map fun n => g (n / 4) (3 - n % 4) := by
  induction columns with
  | zero => rfl
  | succ m ih =>
    have quotient : ∀ k < 4, (4 * m + k) / 4 = m := fun k hk => by omega
    have remainder : ∀ k < 4, (4 * m + k) % 4 = k := fun k hk => by omega
    rw [List.range_succ, List.flatMap_append, ih, Nat.mul_succ, List.range_add, List.map_append]
    simp [List.range_succ, quotient, remainder]

/-- The byte of the `n`-th SER event of a scan (R221). -/
def scanByte (s : State) (n : Nat) : Byte :=
  fbRead s (s.cfg.rowBytes * s.phase.toNat + n / 4 + s.cfg.bandBytes * (3 - n % 4))

/-- The bytes of one scan, in emission order: 16*T of them. -/
def scannedBytes (s : State) : List Byte := (List.range (16 * s.cfg.panels)).map (scanByte s)

@[simp] theorem length_scannedBytes (s : State) : (scannedBytes s).length = 16 * s.cfg.panels := by
  rw [scannedBytes, List.length_map, List.length_range]

theorem getElem?_scannedBytes {s : State} {n : Nat} (hn : n < 16 * s.cfg.panels) :
    (scannedBytes s)[n]? = some (scanByte s n) := by
  rw [scannedBytes, List.getElem?_map, List.getElem?_range hn, Option.map_some]

/-- The SER events of a scan carry the scanned bytes: 4*T byte columns of four bands each. -/
theorem scanBytes_eq_map_ser (s : State) : scanBytes s = (scannedBytes s).map .ser := by
  have columns : 4 * s.cfg.rowBytes = 16 * s.cfg.panels := by
    rw [Config.rowBytes]
    omega
  rw [scanBytes, flatMap_bands_eq_map fun i q => OutEvent.ser (fbRead s (scanIndex s.cfg s.phase.toNat i q)), columns,
    scannedBytes, List.map_map]
  rfl

/-! ## The timer handler, an equation per level of BUS_BUSY (R221, R223) -/

theorem timerHandler_of_free {s : State} (h : s.busBusy = false) : timerHandler s = incTick (scan s) := by
  simp [timerHandler, h]

theorem timerHandler_of_busy {s : State} (h : s.busBusy = true) : timerHandler s = incTick s := by
  simp [timerHandler, h]

/-- Entry clears PEND[TIMER], which is bit 0 (R292). -/
theorem enter_timer (s : State) : enter .timer s =
    returnFromHandler (timerHandler { s with pend := s.pend &&& 0b110#3, ctx := .handler }) := rfl

/-- The timer interrupt with BUS_BUSY = 0: one scan and the tick. -/
theorem enter_timer_of_free {s : State} (h : s.busBusy = false) :
    enter .timer s = { incTick (scan s) with pend := s.pend &&& 0b110#3, ctx := .main } := by
  rw [enter_timer, timerHandler_of_free]
  · rfl
  · exact h

/-- The timer interrupt with BUS_BUSY = 1: the tick alone. -/
theorem enter_timer_of_busy {s : State} (h : s.busBusy = true) :
    enter .timer s = { incTick s with pend := s.pend &&& 0b110#3, ctx := .main } := by
  rw [enter_timer, timerHandler_of_busy]
  · rfl
  · exact h

/-- Settles O45: the bytes of the scan are `scannedBytes`; the rest of the state is as `scan` and `incTick` leave it, and
the return leads back to the main context. -/
theorem timerHandlerScans : Obligations.TimerHandlerScans := by
  intro s hctx
  refine ⟨fun free => ⟨scannedBytes s, length_scannedBytes s, fun n hn => getElem?_scannedBytes hn, ?_⟩, fun busy => ?_⟩
  · rw [enter_timer_of_free free, scan, scanBytes_eq_map_ser, ← hctx]
    rfl
  · rw [enter_timer_of_busy busy, ← hctx]
    rfl

end Sys2Proof.Machine
end

section
/-! The family of 44_timebase_sync.md: TICK after runs of the timer handler, and the time between two readings (R251,
R252). -/

namespace Sys2Proof

/-- TICK_WIDTH is at most the 32 bits that hold TICK. -/
theorem TickWidth.bits_le (tw : TickWidth) : tw.bits ≤ 32 := by
  cases tw <;> decide

namespace Machine

/-! ## TICK after runs of the timer handler (R251) -/

/-- The sum modulo 2^TICK_WIDTH fits in TICK. -/
theorem incTick_tick_toNat (s : State) :
    (incTick s).tick.toNat = (s.tick.toNat + s.cfg.tickInc) % 2 ^ s.cfg.tickWidth.bits := by
  have fits : (s.tick.toNat + s.cfg.tickInc) % 2 ^ s.cfg.tickWidth.bits < 2 ^ 32 :=
    (Nat.mod_lt _ (Nat.two_pow_pos _)).trans_le (Nat.pow_le_pow_right (by decide) s.cfg.tickWidth.bits_le)
  rw [incTick_tick, BitVec.toNat_ofNat, Nat.mod_eq_of_lt fits]

/-- One run adds TICK_INC at either level of BUS_BUSY: a scan leaves TICK as it was. -/
theorem enter_timer_tick_toNat (s : State) :
    (enter .timer s).tick.toNat = (s.tick.toNat + s.cfg.tickInc) % 2 ^ s.cfg.tickWidth.bits := by
  cases hb : s.busBusy with
  | false => rw [enter_timer_of_free hb, incTick_tick_toNat, scan_tick, scan_cfg]
  | true => rw [enter_timer_of_busy hb, incTick_tick_toNat]

theorem timerRuns_tick_toNat {s : State} (n : Nat) (ht : s.tick.toNat < 2 ^ s.cfg.tickWidth.bits) :
    (timerRuns n s).tick.toNat = (s.tick.toNat + n * s.cfg.tickInc) % 2 ^ s.cfg.tickWidth.bits := by
  induction n generalizing s with
  | zero => rw [timerRuns, Nat.zero_mul, Nat.add_zero, Nat.mod_eq_of_lt ht]
  | succ n ih =>
    have inRange : (enter .timer s).tick.toNat < 2 ^ (enter .timer s).cfg.tickWidth.bits := by
      rw [enter_timer_tick_toNat, enter_cfg]
      exact Nat.mod_lt _ (Nat.two_pow_pos _)
    rw [timerRuns, ih inRange, enter_timer_tick_toNat, enter_cfg, Nat.mod_add_mod, Nat.succ_mul, Nat.add_assoc,
      Nat.add_comm s.cfg.tickInc]

/-! ## The time between two readings (R252) -/

/-- A difference is right across one wrap of the counter: a reading `d` units after another, `d` below 2^TICK_WIDTH, is
`d` away from it. -/
theorem tickElapsed_eq {tw : TickWidth} {now before : BitVec 32} {d : Nat} (hb : before.toNat < 2 ^ tw.bits)
    (hnow : now.toNat = (before.toNat + d) % 2 ^ tw.bits) (hd : d < 2 ^ tw.bits) : tickElapsed tw now before = d := by
  have shift : before.toNat + d + (2 ^ tw.bits - before.toNat) = d + 2 ^ tw.bits := by omega
  calc tickElapsed tw now before
      = ((before.toNat + d) % 2 ^ tw.bits + (2 ^ tw.bits - before.toNat)) % 2 ^ tw.bits := by
        rw [tickElapsed, hnow, Nat.add_sub_assoc hb.le]
    _ = (d + 2 ^ tw.bits) % 2 ^ tw.bits := by rw [Nat.mod_add_mod, shift]
    _ = d := by rw [Nat.add_mod_right, Nat.mod_eq_of_lt hd]

/-- Settles O41: TICK after the runs, then its difference from TICK before them. (`tickElapsed` alone is the model's
function.) -/
theorem tickElapsed_timerRuns : Obligations.TickElapsed := fun _ n ht =>
  ⟨timerRuns_tick_toNat n ht, tickElapsed_eq ht (timerRuns_tick_toNat n ht)⟩

end Machine
end Sys2Proof
end

section
/-! The family of 60_exceptions.md: what the entry to a handler, its run and its return change and leave unchanged
(R292, R295). -/

namespace Sys2Proof.Machine

/-! ## The bits of IE and PEND -/

theorem sourceBit_lt (n : Source) : sourceBit n < 3 := by
  cases n <;> decide

/-- No two sources share a bit of IE or PEND. -/
theorem sourceBit_injective : Function.Injective sourceBit := by
  intro m n sameBit
  cases m <;> cases n <;> simp [sourceBit] at sameBit ⊢

/-- `putBit` masks with the power of two that stands for bit `n`. -/
theorem putBit_eq_twoPow (v : BitVec 3) (n : Nat) (b : Bool) :
    putBit v n b = if b then v ||| BitVec.twoPow 3 n else v &&& ~~~BitVec.twoPow 3 n := rfl

theorem putBit_getLsbD_same (v : BitVec 3) {n : Nat} (b : Bool) (hn : n < 3) : (putBit v n b).getLsbD n = b := by
  cases b <;> simp [putBit_eq_twoPow, hn]

theorem putBit_getLsbD_other (v : BitVec 3) {n i : Nat} (b : Bool) (h : i ≠ n) :
    (putBit v n b).getLsbD i = v.getLsbD i := by
  cases b with
  | true => simp [putBit_eq_twoPow, BitVec.getLsbD_twoPow, h.symm]
  | false =>
    have inRange : v.getLsbD i = true → i < 3 := BitVec.lt_of_getLsbD
    simpa [putBit_eq_twoPow, BitVec.getLsbD_twoPow, h.symm] using inRange

theorem pendBit_enter_same (s : State) (n : Source) : pendBit (enter n s) n = false := by
  rw [pendBit, enter_pend, putBit_getLsbD_same s.pend false (sourceBit_lt n)]

theorem pendBit_enter_other (s : State) {m n : Source} (h : m ≠ n) : pendBit (enter n s) m = pendBit s m := by
  rw [pendBit, enter_pend, putBit_getLsbD_other s.pend false (sourceBit_injective.ne h), pendBit]

/-! ## An equation per edge source (R262) -/

theorem enter_edge0 (s : State) : enter .edge0 s =
    { s with ctx := .main, pend := putBit s.pend 1 false, flag0 := 0x01#8 } := rfl

theorem enter_edge1 (s : State) : enter .edge1 s =
    { s with ctx := .main, pend := putBit s.pend 2 false, flag1 := 0x01#8 } := rfl

/-! ## What a handler writes -/

theorem enter_flag0 (s : State) (n : Source) : (enter n s).flag0 = if n = .edge0 then 0x01#8 else s.flag0 := by
  cases n with
  | timer => simp [enter_timer]
  | edge0 => simp [enter_edge0]
  | edge1 => simp [enter_edge1]

theorem enter_flag1 (s : State) (n : Source) : (enter n s).flag1 = if n = .edge1 then 0x01#8 else s.flag1 := by
  cases n with
  | timer => simp [enter_timer]
  | edge0 => simp [enter_edge0]
  | edge1 => simp [enter_edge1]

/-- The timer's interrupt writes no flag: it writes what the tick and, with the bus free, the scan write. -/
theorem enter_timer_frame (s : State) : enter .timer s = { s with
    ctx := .main, pend := (enter .timer s).pend, tick := (enter .timer s).tick, phase := (enter .timer s).phase,
    rowEn := (enter .timer s).rowEn, rowAddr := (enter .timer s).rowAddr, out := (enter .timer s).out } := by
  rcases Bool.eq_false_or_eq_true s.busBusy with busy | free
  · rw [enter_timer_of_busy busy]
    rfl
  · rw [enter_timer_of_free free]
    rfl

/-- The fields any source's handler may write; all others keep their values. -/
theorem enter_frame (s : State) (n : Source) : enter n s = { s with
    ctx := .main, pend := (enter n s).pend, tick := (enter n s).tick, phase := (enter n s).phase,
    rowEn := (enter n s).rowEn, rowAddr := (enter n s).rowAddr, out := (enter n s).out,
    flag0 := (enter n s).flag0, flag1 := (enter n s).flag1 } := by
  cases n with
  | timer =>
    rw [enter_flag0, enter_flag1]
    exact enter_timer_frame s
  | edge0 => rw [enter_edge0]
  | edge1 => rw [enter_edge1]

/-- TICK and the state of the scan-out are the timer's alone. -/
theorem enter_edge_timerState (s : State) {n : Source} (h : n ≠ .timer) :
    (enter n s).tick = s.tick ∧ (enter n s).phase = s.phase ∧ (enter n s).rowEn = s.rowEn ∧
      (enter n s).rowAddr = s.rowAddr ∧ (enter n s).out = s.out := by
  cases n with
  | timer => exact absurd rfl h
  | edge0 => simp [enter_edge0]
  | edge1 => simp [enter_edge1]

/-- Settles O50: the frame of each handler, its own pending bit, and its own flag. -/
theorem handlerFrame : Obligations.HandlerFrame := fun s n =>
  ⟨enter_frame s n, ⟨pendBit_enter_same s n, fun _ other => pendBit_enter_other s other⟩, enter_edge_timerState s,
    enter_flag0 s n, enter_flag1 s n⟩

end Sys2Proof.Machine
end

section
/-! The family of 70_reset_and_hazards.md: what the state holds after reset, byte stores included (R320). -/

namespace Sys2Proof.Machine

/-! ## The byte stores after reset

Reset leaves each store with no byte listed, so every byte reads as the store's unlisted byte. -/

@[simp] theorem fbRead_resetWith (c : Config) (i : Nat) : fbRead (State.resetWith c) i = 0xFF#8 :=
  Memory.read_nil fbUnlisted i

@[simp] theorem mqTextRead_resetWith (c : Config) (i : Nat) : mqTextRead (State.resetWith c) i = 0x00#8 :=
  Memory.read_nil textUnlisted i

@[simp] theorem textRead_resetWith (c : Config) (i : Nat) : textRead (State.resetWith c) i = 0x00#8 :=
  Memory.read_nil textUnlisted i

/-- Settles O57: FB, MQ_TEXT and TEXT byte by byte; every other item of R320 is a field `State.resetWith` writes. -/
theorem resetValues : Obligations.ResetValues := by
  intro c s
  have fbDark : ∀ i, i < c.fbBytes → fbRead s i = 0xFF#8 := fun i _ => fbRead_resetWith c i
  have mqTextZero : ∀ i, i < marqueeMax → mqTextRead s i = 0x00#8 := fun i _ => mqTextRead_resetWith c i
  have textZero : ∀ i, i < textSize → textRead s i = 0x00#8 := fun i _ => textRead_resetWith c i
  exact ⟨rfl, rfl, rfl, rfl, rfl, rfl, fbDark, rfl, rfl, rfl, mqTextZero, rfl, rfl, rfl, rfl, rfl, textZero,
    rfl, rfl, rfl, rfl, rfl, rfl, rfl, rfl, rfl, rfl, rfl, rfl⟩

end Sys2Proof.Machine
end

section
/-! The encoding, both ways: decoding inverts encoding (R91, R97), and the decoder is the table of R100. -/

namespace Sys2Proof

open Machine

/-! ## The numbers of the small fields -/

@[simp] theorem Mode.ofBits_toBits (m : Mode) : Mode.ofBits m.toBits = some m := by
  cases m <;> rfl

@[simp] theorem TestKind.ofBits_toBits (k : TestKind) : TestKind.ofBits k.toBits = k := by
  cases k <;> rfl

@[simp] theorem Source.ofBits_toBits (n : Source) : Source.ofBits n.toBits = some n := by
  cases n <;> rfl

@[simp] theorem bitOf_bitTo (v : Bool) : bitOf (bitTo v) = v := by
  cases v <;> rfl

@[simp] theorem TestKind.toBits_ofBits : ∀ b : BitVec 2, (TestKind.ofBits b).toBits = b := by
  decide

@[simp] theorem bitTo_bitOf : ∀ b : BitVec 1, bitTo (bitOf b) = b := by
  decide

/-- R92: a mode's number is the MODE field that decodes to it. -/
theorem Mode.ofBits_eq_some {m : Mode} : ∀ {b : BitVec 3}, Mode.ofBits b = some m → m.toBits = b := by
  cases m <;> decide

/-- R94: a source's number is the SRC field that decodes to it. -/
theorem Source.ofBits_eq_some {n : Source} : ∀ {b : BitVec 2}, Source.ofBits b = some n → n.toBits = b := by
  cases n <;> decide

/-- R92: MODE 0..4 are the modes. -/
theorem Mode.exists_of_le : ∀ {b : BitVec 3}, b.toNat ≤ 4 → ∃ m, Mode.ofBits b = some m ∧ m.toBits = b := by
  intro b hb
  have : ∀ b : BitVec 3, b.toNat ≤ 4 → (Mode.ofBits b).isSome = true := by decide
  obtain ⟨m, hm⟩ := Option.isSome_iff_exists.mp (this b hb)
  exact ⟨m, hm, Mode.ofBits_eq_some hm⟩

/-- R94: SRC 0..2 are the sources. -/
theorem Source.exists_of_ne : ∀ {b : BitVec 2}, b ≠ 3#2 → ∃ n, Source.ofBits b = some n ∧ n.toBits = b := by
  intro b hb
  have : ∀ b : BitVec 2, b ≠ 3#2 → (Source.ofBits b).isSome = true := by decide
  obtain ⟨n, hn⟩ := Option.isSome_iff_exists.mp (this b hb)
  exact ⟨n, hn, Source.ofBits_eq_some hn⟩

theorem Mode.toBits_le (m : Mode) : m.toBits.toNat ≤ 4 := by
  cases m <;> decide

theorem Source.toBits_ne (n : Source) : n.toBits ≠ 3#2 := by
  cases n <;> decide

/-! ## Decoding the fields inverts encoding them -/

theorem onlyIf_eq_some {check : Bool} {o : Option Instr} {i : Instr} :
    onlyIf check o = some i ↔ check = true ∧ o = some i := by
  cases check <;> simp [onlyIf]

@[simp] theorem onlyIf_true (o : Option Instr) : onlyIf true o = o := rfl

/-- The row of R97 that a command's opcode selects gives the command back. -/
@[simp] theorem decodeFields_encodeFields (i : Instr) : decodeFields (encodeFields i) = some i := by
  cases i <;>
    simp [decodeFields, encodeFields, Fields.noMode, Fields.noV, Fields.noKind, Fields.noSrc, Fields.noB8]

/-- Settles O1. -/
theorem decodeEncode : Obligations.DecodeEncode := fun _ i hwf =>
  decode_of_fields ((decodeFields_encode i).trans (decodeFields_encodeFields i)) hwf

/-- Fields that give a command are the fields of its word: the row's checks fix every field the command does not carry. -/
theorem encodeFields_of_decodeFields {f : Fields} {i : Instr} (h : decodeFields f = some i) : encodeFields i = f := by
  obtain ⟨op, mode, v, kind, src, b8, rsv⟩ := f
  have opcode : ∀ {n : Nat}, op.toNat = n → op = BitVec.ofNat 8 n := fun h => by
    rw [← h, BitVec.ofNat_toNat, BitVec.setWidth_eq]
  unfold decodeFields at h
  split at h
  · cases h
  · rename_i hrsv
    obtain rfl : rsv = 0#8 := not_not.mp hrsv
    split at h
    case h_21 => cases h
    all_goals
      rename_i hop
      obtain rfl := opcode hop
      simp only [onlyIf_eq_some, Option.map_eq_some_iff, Option.some.injEq, Fields.noMode, Fields.noV, Fields.noKind,
        Fields.noSrc, Fields.noB8, Bool.and_eq_true, beq_iff_eq] at h
    case h_1 | h_5 | h_7 | h_8 | h_9 | h_10 | h_11 =>
      obtain ⟨unused, m, hm, rfl⟩ := h
      simp [encodeFields, Mode.ofBits_eq_some hm, unused]
    case h_17 | h_18 =>
      obtain ⟨unused, n, hn, rfl⟩ := h
      simp [encodeFields, Source.ofBits_eq_some hn, unused]
    all_goals
      obtain ⟨unused, rfl⟩ := h
      simp [encodeFields, unused]

/-- Settles O2: the word is the word of its fields, and those are the command's. -/
theorem encodeDecode : Obligations.EncodeDecode := by
  intro tw w i h
  obtain ⟨hf, hwf⟩ := decode_eq_some_iff.mp h
  exact ⟨by rw [encode, encodeFields_of_decodeFields hf, Fields.pack_unpack], hwf⟩

/-! ## Masks and patterns, field by field -/

/-- A word is a pattern under a mask exactly when each of its fields is (R91, R98). -/
theorem and_eq_iff_fields (w mask pattern : Word) : w &&& mask = pattern ↔
    (Fields.unpack w).op &&& (Fields.unpack mask).op = (Fields.unpack pattern).op ∧
    (Fields.unpack w).mode &&& (Fields.unpack mask).mode = (Fields.unpack pattern).mode ∧
    (Fields.unpack w).v &&& (Fields.unpack mask).v = (Fields.unpack pattern).v ∧
    (Fields.unpack w).kind &&& (Fields.unpack mask).kind = (Fields.unpack pattern).kind ∧
    (Fields.unpack w).src &&& (Fields.unpack mask).src = (Fields.unpack pattern).src ∧
    (Fields.unpack w).b8 &&& (Fields.unpack mask).b8 = (Fields.unpack pattern).b8 ∧
    (Fields.unpack w).rsv &&& (Fields.unpack mask).rsv = (Fields.unpack pattern).rsv := by
  have unpack_and : Fields.unpack (w &&& mask) = Fields.unpack pattern ↔ w &&& mask = pattern :=
    ⟨Fields.unpack_inj, congrArg _⟩
  rw [← unpack_and]
  simp only [Fields.unpack, BitVec.extractLsb'_and, Fields.mk.injEq]

/-- R100, in terms of the fields of the word. -/
theorem rowAccepts_iff_fields {tw : TickWidth} {row : OpcodeRow} {w : Word} : rowAccepts tw row w ↔
    w &&& row.mask = row.pattern ∧
    ((Fields.unpack row.mask).mode = 0#3 → (Fields.unpack w).mode.toNat ≤ 4) ∧
    ((Fields.unpack row.mask).src = 0#2 → (Fields.unpack w).src ≠ 3#2) ∧
    ((Fields.unpack w).op = 0x11#8 → (Fields.unpack w).b8.toNat < tw.lanes) ∧
    ((Fields.unpack w).op = 0x14#8 ∨ (Fields.unpack w).op = 0x15#8 → (Fields.unpack w).b8.toNat < nEdge) :=
  Iff.rfl

/-- Every command belongs to a row of the table. -/
theorem row_mem_opcodeTable (i : Instr) : i.row ∈ opcodeTable := by
  cases i <;> simp [opcodeTable, Instr.row]

@[simp] theorem unpack_encode (i : Instr) : Fields.unpack (encode i) = encodeFields i := Fields.unpack_pack _

/-- The row of a well-formed command accepts its word (R98). -/
theorem rowAccepts_encode {tw : TickWidth} {i : Instr} (hwf : i.wf tw = true) : rowAccepts tw i.row (encode i) := by
  rw [rowAccepts_iff_fields, and_eq_iff_fields, unpack_encode]
  cases i <;> simp only [Instr.row, encodeFields, Fields.unpack, Instr.wf, decide_eq_true_eq] at hwf ⊢ <;>
    simp [Mode.toBits_le, Source.toBits_ne, hwf]

theorem and_ones8 (b : BitVec 8) : b &&& 0xFF#8 = b := BitVec.and_allOnes
theorem and_ones3 (b : BitVec 3) : b &&& 7#3 = b := BitVec.and_allOnes
theorem and_ones2 (b : BitVec 2) : b &&& 3#2 = b := BitVec.and_allOnes
theorem and_ones1 (b : BitVec 1) : b &&& 1#1 = b := BitVec.and_allOnes

/-- A word that a command's row accepts decodes to a command of that row: MODE and SRC name a mode and a source where the
row uses them, and V, KIND and B8 may be anything. -/
theorem exists_decode_of_rowAccepts {tw : TickWidth} {w : Word} (j : Instr) (h : rowAccepts tw j.row w) :
    ∃ i, decode tw w = some i ∧ i.row = j.row := by
  suffices ∃ i : Instr, encodeFields i = Fields.unpack w ∧ i.wf tw = true ∧ i.row = j.row by
    obtain ⟨i, hi, hwf, hrow⟩ := this
    exact ⟨i, decode_of_fields (hi ▸ decodeFields_encodeFields i) hwf, hrow⟩
  simp only [rowAccepts_iff_fields, and_eq_iff_fields] at h
  generalize Fields.unpack w = f at h
  obtain ⟨op, mode, v, kind, src, b8, rsv⟩ := f
  obtain ⟨⟨hop, hmode, hv, hkind, hsrc, hb8, hrsv⟩, modeUsed, srcUsed, lane, flag⟩ := h
  cases j
  all_goals
    simp only [Instr.row, Fields.unpack] at hop hmode hv hkind hsrc hb8 hrsv modeUsed srcUsed
    simp [and_ones8, and_ones3, and_ones2, and_ones1] at hop hmode hv hkind hsrc hb8 hrsv modeUsed srcUsed
    subst_vars
    simp at lane flag
  case writePixel =>
    obtain ⟨m, -, rfl⟩ := Mode.exists_of_le modeUsed
    exact ⟨.writePixel m (bitOf v), by simp [encodeFields], rfl, rfl⟩
  case clear => exact ⟨.clear (bitOf v), by simp [encodeFields], rfl, rfl⟩
  case selectFont => exact ⟨.selectFont, rfl, rfl, rfl⟩
  case charWidth => exact ⟨.charWidth b8, rfl, rfl, rfl⟩
  case drawChar =>
    obtain ⟨m, -, rfl⟩ := Mode.exists_of_le modeUsed
    exact ⟨.drawChar m b8, rfl, rfl, rfl⟩
  case textWrite => exact ⟨.textWrite b8, rfl, rfl, rfl⟩
  case drawString =>
    obtain ⟨m, -, rfl⟩ := Mode.exists_of_le modeUsed
    exact ⟨.drawString m b8, rfl, rfl, rfl⟩
  case drawLine =>
    obtain ⟨m, -, rfl⟩ := Mode.exists_of_le modeUsed
    exact ⟨.drawLine m, rfl, rfl, rfl⟩
  case drawBox =>
    obtain ⟨m, -, rfl⟩ := Mode.exists_of_le modeUsed
    exact ⟨.drawBox m, rfl, rfl, rfl⟩
  case drawFilledBox =>
    obtain ⟨m, -, rfl⟩ := Mode.exists_of_le modeUsed
    exact ⟨.drawFilledBox m, rfl, rfl, rfl⟩
  case drawCircle =>
    obtain ⟨m, -, rfl⟩ := Mode.exists_of_le modeUsed
    exact ⟨.drawCircle m, rfl, rfl, rfl⟩
  case drawTestPattern => exact ⟨.drawTestPattern (TestKind.ofBits kind), by simp [encodeFields], rfl, rfl⟩
  case drawMarquee => exact ⟨.drawMarquee b8, rfl, rfl, rfl⟩
  case stepMarquee => exact ⟨.stepMarquee, rfl, rfl, rfl⟩
  case tickRead => exact ⟨.tickRead, rfl, rfl, rfl⟩
  case tickReadByte => exact ⟨.tickReadByte b8, rfl, decide_eq_true lane, rfl⟩
  case ieSaveDisable =>
    obtain ⟨n, -, rfl⟩ := Source.exists_of_ne srcUsed
    exact ⟨.ieSaveDisable n, rfl, rfl, rfl⟩
  case ieRestore =>
    obtain ⟨n, -, rfl⟩ := Source.exists_of_ne srcUsed
    exact ⟨.ieRestore n, rfl, rfl, rfl⟩
  case flagRead => exact ⟨.flagRead b8, rfl, decide_eq_true flag, rfl⟩
  case flagClear => exact ⟨.flagClear b8, rfl, decide_eq_true flag, rfl⟩

theorem exists_instr_of_mem_opcodeTable {row : OpcodeRow} (h : row ∈ opcodeTable) : ∃ j : Instr, j.row = row := by
  simp only [opcodeTable, List.mem_cons, List.not_mem_nil, or_false] at h
  rcases h with rfl | rfl | rfl | rfl | rfl | rfl | rfl | rfl | rfl | rfl | rfl | rfl | rfl | rfl | rfl | rfl | rfl |
    rfl | rfl | rfl
  all_goals exact ⟨_, rfl⟩

/-- Settles O3: a command that decodes has the accepted word of its row, and an accepted word decodes. -/
theorem decodeFollowsTable : Obligations.DecodeFollowsTable := by
  intro tw w
  have accepts_of_decode : ∀ i, decode tw w = some i → rowAccepts tw i.row w := fun i hi => by
    obtain ⟨rfl, hwf⟩ := encodeDecode tw w i hi
    exact rowAccepts_encode hwf
  have row_iff : ∀ row ∈ opcodeTable, (∃ i, decode tw w = some i ∧ i.row = row) ↔ rowAccepts tw row w := by
    intro row hrow
    refine ⟨fun ⟨i, hi, hr⟩ => hr ▸ accepts_of_decode i hi, fun h => ?_⟩
    obtain ⟨j, rfl⟩ := exists_instr_of_mem_opcodeTable hrow
    exact exists_decode_of_rowAccepts j h
  refine ⟨row_iff, fun hnone row hrow h => ?_, fun hrows => ?_⟩
  · obtain ⟨i, hi, -⟩ := (row_iff row hrow).mpr h
    cases hnone.symm.trans hi
  · exact Option.eq_none_iff_forall_ne_some.mpr fun i hi =>
      hrows i.row (row_mem_opcodeTable i) (accepts_of_decode i hi)

end Sys2Proof
end

section
/-! Micro-operations that change FB only, what DrawChar and DrawString plot and where, and what every command issues. -/

namespace Sys2Proof.Machine

/-! ## Micro-operations that change FB only -/

/-- The micro-operation changes FB only, at a byte that exists. -/
def MicroOp.paints (c : Config) : MicroOp → Bool
  | .plot _ _ _ _ => true
  | .fbWrite i _ => decide (i < c.fbBytes)
  | .shiftLeftByte i => decide (i < c.fbBytes)
  | .shiftRightByte i => decide (i < c.fbBytes)
  | _ => false

theorem plot_frame (s : State) (x y : Int) (mode : Mode) (v : Bool) :
    plot s x y mode v = { s with fb := (plot s x y mode v).fb } := by
  unfold plot
  split <;> rfl

/-- A micro-operation that paints completes and changes FB only. -/
theorem perform_paints {op : MicroOp} {s : State} (h : op.paints s.cfg = true) :
    ∃ t, perform op s = .next t ∧ t = { s with fb := t.fb } := by
  cases op with
  | plot x y mode v => exact ⟨_, rfl, plot_frame s x y mode v⟩
  | fbWrite i v => exact ⟨_, checkedFbWrite_eq_next.mpr ⟨of_decide_eq_true h, rfl⟩, rfl⟩
  | shiftLeftByte i => exact ⟨_, checkedFbWrite_eq_next.mpr ⟨of_decide_eq_true h, rfl⟩, rfl⟩
  | shiftRightByte i => exact ⟨_, checkedFbWrite_eq_next.mpr ⟨of_decide_eq_true h, rfl⟩, rfl⟩
  | _ => cases h

/-- Painting completes and changes FB only. -/
theorem performAll_paints {ops : List MicroOp} : ∀ {s : State}, (∀ op ∈ ops, op.paints s.cfg = true) →
    ∃ t, performAll ops s = .next t ∧ t = { s with fb := t.fb } := by
  induction ops with
  | nil => exact fun _ => ⟨_, rfl, rfl⟩
  | cons op ops ih =>
    intro s h
    obtain ⟨u, hu, frame⟩ := perform_paints (h op List.mem_cons_self)
    have cfg : u.cfg = s.cfg := by rw [frame]
    obtain ⟨t, ht, frame'⟩ := ih (s := u) fun op' hop' => by
      rw [cfg]
      exact h op' (List.mem_cons_of_mem _ hop')
    exact ⟨t, (performAll_cons hu).trans ht, by rw [frame', frame]⟩

/-- The parameters never change (R7). -/
theorem perform_cfg {op : MicroOp} {s t : State} (h : perform op s = .next t) : t.cfg = s.cfg := by
  rw [perform_frame h]

/-- Every micro-operation keeps the canonical form of FB. -/
theorem perform_fbWf {op : MicroOp} {s t : State} (h : perform op s = .next t) (hwf : s.fbWf) : t.fbWf := by
  cases op with
  | plot x y mode v =>
    obtain rfl := Host.Outcome.next.inj h
    simpa [State.fbWf] using plot_wf hwf
  | fbWrite i v =>
    obtain ⟨hi, rfl⟩ := checkedFbWrite_eq_next.mp h
    exact Memory.wf_write hwf hi
  | shiftLeftByte i =>
    obtain ⟨hi, rfl⟩ := checkedFbWrite_eq_next.mp h
    exact Memory.wf_write hwf hi
  | shiftRightByte i =>
    obtain ⟨hi, rfl⟩ := checkedFbWrite_eq_next.mp h
    exact Memory.wf_write hwf hi
  | clearFlag k =>
    obtain rfl := Host.Outcome.next.inj h
    simpa [State.fbWf] using hwf
  | _ =>
    obtain rfl := Host.Outcome.next.inj h
    exact hwf

theorem performAll_fbWf {ops : List MicroOp} : ∀ {s t : State}, performAll ops s = .next t → s.fbWf → t.fbWf := by
  induction ops with
  | nil =>
    intro s t h hwf
    exact Host.Outcome.next.inj h ▸ hwf
  | cons op ops ih =>
    intro s t h hwf
    simp only [performAll] at h
    split at h
    · rename_i u hu
      exact ih h (perform_fbWf hu hwf)
    · cases h
    · cases h

theorem mem_plotAll {mode : Mode} {v : Bool} {ps : List (Int × Int)} {op : MicroOp} :
    op ∈ plotAll mode v ps ↔ ∃ p ∈ ps, op = .plot p.1 p.2 mode v := by
  simp [plotAll, eq_comm]

theorem plotAll_paints {c : Config} {mode : Mode} {v : Bool} {ps : List (Int × Int)} :
    ∀ op ∈ plotAll mode v ps, op.paints c = true := by
  intro op hop
  obtain ⟨p, -, rfl⟩ := mem_plotAll.mp hop
  rfl

theorem clearOps_paints {c : Config} {v : Bool} : ∀ op ∈ clearOps c v, op.paints c = true := by
  intro op hop
  simp only [clearOps, List.mem_map, List.mem_range] at hop
  obtain ⟨i, hi, rfl⟩ := hop
  exact decide_eq_true hi

/-! ## Straight lines -/

/-- While the error term is negative and nothing is added to it, DrawLine steps along its major axis. -/
theorem lineSteps_straight (n : Nat) (a b sa sb da : Int) {f : Int} (hf : f < 0) :
    lineSteps n a b f sa sb da 0 = (List.range n).map fun k => (a + sa * (k + 1 : Nat), b) := by
  induction n generalizing a with
  | zero => rfl
  | succ n ih =>
    have hf' : ¬ f ≥ 0 := by omega
    simp only [lineSteps, hf', if_false, add_zero, ih, List.range_succ_eq_map, List.map_cons, List.map_map]
    congr 1
    · simp
    · refine List.map_congr_left fun k _ => ?_
      simp only [Function.comp_apply, Prod.mk.injEq, and_true]
      push_cast
      ring

/-- The points of a vertical line, in order. -/
theorem linePoints_vertical (x y1 y2 : Int) : linePoints x y1 x y2 =
    (List.range ((y2 - y1).natAbs + 1)).map fun (k : Nat) => (x, y1 + lineSign (y2 - y1) * (k : Int)) := by
  rw [List.range_succ_eq_map, List.map_cons, List.map_map]
  rcases Nat.eq_zero_or_pos (y2 - y1).natAbs with h0 | hpos
  · simp [linePoints, h0, lineSteps]
  · have hneg : (0 : Int) - 2 * ((y2 - y1).natAbs : Int) / 2 < 0 := by omega
    have hle : ¬ (0 : Int) > 2 * ((y2 - y1).natAbs : Int) := by omega
    simp only [linePoints, sub_self, Int.natAbs_zero, Nat.cast_zero, mul_zero, hle, if_false,
      lineSteps_straight _ _ _ _ _ _ hneg, List.map_map]
    simp [Function.comp_def]

/-- The points of a horizontal line, in order. -/
theorem linePoints_horizontal (x1 x2 y : Int) : linePoints x1 y x2 y =
    (List.range ((x2 - x1).natAbs + 1)).map fun (k : Nat) => (x1 + lineSign (x2 - x1) * (k : Int), y) := by
  rw [List.range_succ_eq_map, List.map_cons, List.map_map]
  rcases Nat.eq_zero_or_pos (x2 - x1).natAbs with h0 | hpos
  · simp [linePoints, h0, lineSteps]
  · have hneg : (0 : Int) - 2 * ((x2 - x1).natAbs : Int) / 2 < 0 := by omega
    have hgt : 2 * ((x2 - x1).natAbs : Int) > 0 := by omega
    simp only [linePoints, sub_self, Int.natAbs_zero, Nat.cast_zero, mul_zero, hgt, if_true,
      lineSteps_straight _ _ _ _ _ _ hneg]
    simp [Function.comp_def]

/-- A point lies on a line of one column exactly when it lies between the ends. -/
theorem mem_linePoints_vertical {x y1 y2 : Int} {p : Int × Int} :
    p ∈ linePoints x y1 x y2 ↔ p.1 = x ∧ min y1 y2 ≤ p.2 ∧ p.2 ≤ max y1 y2 := by
  obtain ⟨a, b⟩ := p
  simp only [linePoints_vertical, List.mem_map, List.mem_range, Prod.mk.injEq, lineSign]
  constructor
  · rintro ⟨k, hk, rfl, rfl⟩
    split <;> omega
  · rintro ⟨rfl, h1, h2⟩
    refine ⟨(b - y1).natAbs, by omega, rfl, ?_⟩
    split <;> omega

/-- A point lies on a line of one row exactly when it lies between the ends. -/
theorem mem_linePoints_horizontal {x1 x2 y : Int} {p : Int × Int} :
    p ∈ linePoints x1 y x2 y ↔ min x1 x2 ≤ p.1 ∧ p.1 ≤ max x1 x2 ∧ p.2 = y := by
  obtain ⟨a, b⟩ := p
  simp only [linePoints_horizontal, List.mem_map, List.mem_range, Prod.mk.injEq, lineSign]
  constructor
  · rintro ⟨k, hk, rfl, rfl⟩
    split <;> omega
  · rintro ⟨h1, h2, rfl⟩
    refine ⟨(a - x1).natAbs, by omega, ?_, rfl⟩
    split <;> omega

end Sys2Proof.Machine
end

section
/-! DrawChar and DrawString (R150, R171): an equation per case, and where their plots lie. -/

namespace Sys2Proof.Machine

/-! ## CharWidth, an equation per case (R145) -/

theorem charWidth_of_unread {s : State} {c : Byte} (h : glyphIndex s (if c = spaceChar then charN else c) = none) :
    charWidth s c = none := by
  simp [charWidth, h]

theorem charWidth_of_unrenderable {s : State} {c : Byte}
    (h : glyphIndex s (if c = spaceChar then charN else c) = some none) : charWidth s c = some 0 := by
  simp [charWidth, h]

theorem charWidth_of_renderable {s : State} {c : Byte} {gi : Nat}
    (h : glyphIndex s (if c = spaceChar then charN else c) = some (some gi)) : charWidth s c = glyphWidth s gi := by
  simp [charWidth, h]

/-! ## DrawChar, an equation per case (R150) -/

/-- The point lies on the grid or past its left or top edge, where DrawChar and DrawString still draw (R150, R171). -/
def beforeEdges (c : Config) (x y : Int) : Prop := x < c.gridWidth ∧ y < c.gridHeight

theorem beforeEdges_iff {c : Config} {x y : Int} : beforeEdges c x y ↔ ¬ (x ≥ c.gridWidth ∨ y ≥ c.gridHeight) := by
  unfold beforeEdges
  omega

theorem drawChar_off {s : State} {x y : Int} {c : Byte} {mode : Mode} (h : ¬ beforeEdges s.cfg x y) :
    drawChar s x y c mode = some (-1, []) := by
  rw [drawChar, if_pos (not_not.mp (mt beforeEdges_iff.mpr h))]

theorem drawChar_space {s : State} {x y : Int} {mode : Mode} (hon : beforeEdges s.cfg x y) :
    drawChar s x y spaceChar mode =
      (charWidth s spaceChar).bind fun w => (fontHeight s).map fun h => ((w : Int), spaceOps x y mode h w) := by
  rw [drawChar, if_neg (beforeEdges_iff.mp hon), if_pos rfl]
  cases charWidth s spaceChar with
  | none => rfl
  | some w => cases fontHeight s <;> rfl

theorem drawChar_of_unread {s : State} {x y : Int} {c : Byte} {mode : Mode} (hon : beforeEdges s.cfg x y)
    (hc : c ≠ spaceChar) (hg : glyphIndex s c = none) : drawChar s x y c mode = none := by
  rw [drawChar, if_neg (beforeEdges_iff.mp hon), if_neg hc, hg]
  rfl

theorem drawChar_of_unrenderable {s : State} {x y : Int} {c : Byte} {mode : Mode} (hon : beforeEdges s.cfg x y)
    (hc : c ≠ spaceChar) (hg : glyphIndex s c = some none) : drawChar s x y c mode = some (0, []) := by
  rw [drawChar, if_neg (beforeEdges_iff.mp hon), if_neg hc, hg]
  rfl

theorem drawChar_of_renderable {s : State} {x y : Int} {c : Byte} {mode : Mode} {gi : Nat}
    (hon : beforeEdges s.cfg x y) (hc : c ≠ spaceChar) (hg : glyphIndex s c = some (some gi)) :
    drawChar s x y c mode = (glyphWidth s gi).bind fun w => (fontHeight s).bind fun h =>
      (glyphOffset s gi (bytesPerColumn h)).bind fun off =>
        (glyphOps s x y mode h w off).map fun ops => ((w : Int), ops) := by
  simp only [drawChar, if_neg (beforeEdges_iff.mp hon), if_neg hc, hg, Option.bind_eq_bind, Option.bind_some, Option.pure_def,
    Option.map_eq_bind]
  rfl

/-- What DrawChar answers when its reads can be made: nothing past an edge, the box of a space, nothing for an
unrenderable code point, or the plots of a glyph (R150). -/
theorem drawChar_cases {s : State} {x y : Int} {c : Byte} {mode : Mode} {w : Int} {ops : List MicroOp}
    (h : drawChar s x y c mode = some (w, ops)) :
    (¬ beforeEdges s.cfg x y ∧ w = -1 ∧ ops = []) ∨
    (beforeEdges s.cfg x y ∧ ∃ n : Nat, charWidth s c = some n ∧ w = n ∧
      ((∃ h, fontHeight s = some h ∧ ops = spaceOps x y mode h n) ∨ (n = 0 ∧ ops = []) ∨
        ∃ h off, fontHeight s = some h ∧ glyphOps s x y mode h n off = some ops)) := by
  by_cases hon : beforeEdges s.cfg x y
  · refine .inr ⟨hon, ?_⟩
    by_cases hc : c = spaceChar
    · subst hc
      rw [drawChar_space hon] at h
      simp only [Option.bind_eq_some_iff, Option.map_eq_some_iff, Prod.mk.injEq] at h
      obtain ⟨n, hn, ht, hht, rfl, rfl⟩ := h
      exact ⟨n, hn, rfl, .inl ⟨ht, hht, rfl⟩⟩
    · have width : (if c = spaceChar then charN else c) = c := if_neg hc
      rcases hg : glyphIndex s c with _ | _ | gi
      · rw [drawChar_of_unread hon hc hg] at h
        cases h
      · rw [drawChar_of_unrenderable hon hc hg] at h
        obtain ⟨rfl, rfl⟩ := Prod.mk.inj (Option.some.inj h)
        exact ⟨0, charWidth_of_unrenderable (width.symm ▸ hg), rfl, .inr (.inl ⟨rfl, rfl⟩)⟩
      · rw [drawChar_of_renderable hon hc hg] at h
        simp only [Option.bind_eq_some_iff, Option.map_eq_some_iff, Prod.mk.injEq] at h
        obtain ⟨n, hn, ht, hht, off, hoff, l, hl, rfl, rfl⟩ := h
        exact ⟨n, (charWidth_of_renderable (width.symm ▸ hg)).trans hn, rfl, .inr (.inr ⟨ht, off, hht, hl⟩)⟩
  · rw [drawChar_off hon] at h
    obtain ⟨rfl, rfl⟩ := Prod.mk.inj (Option.some.inj h)
    exact .inl ⟨hon, rfl, rfl⟩

/-- A plot of the rectangle with the corner (x, y), `w` columns wide and `h` rows high, whatever its value. -/
def plotsIn (x y : Int) (w h : Nat) (mode : Mode) (op : MicroOp) : Prop :=
  ∃ j < w, ∃ r < h, ∃ v, op = .plot (x + (j : Int)) (y + (r : Int)) mode v

/-- Mapping over numbers that are read as integers first. -/
theorem map_natCast_list {α : Type} (f : Int → α) (l : List Nat) :
    List.map f (l.flatMap fun (a : Nat) => [(a : Int)]) = l.map fun (n : Nat) => f n := by
  rw [List.map_flatMap, List.map_eq_flatMap]
  rfl

theorem spaceOps_eq (x y : Int) (mode : Mode) (h w : Nat) : spaceOps x y mode h w = plotAll mode false
    ((List.range w).flatMap fun (i : Nat) => (List.range h).map fun (j : Nat) => (x + (i : Int), y + (j : Int))) := by
  simp [spaceOps, map_natCast_list, List.flatMap_assoc]

theorem mem_spaceOps {x y : Int} {mode : Mode} {h w : Nat} {op : MicroOp} (hop : op ∈ spaceOps x y mode h w) :
    plotsIn x y w h mode op := by
  rw [spaceOps_eq] at hop
  obtain ⟨p, hp, rfl⟩ := mem_plotAll.mp hop
  simp only [List.mem_flatMap, List.mem_map, List.mem_range] at hp
  obtain ⟨j, hj, r, hr, rfl⟩ := hp
  exact ⟨j, hj, r, hr, false, rfl⟩

theorem mem_columnByteOps {c : Config} {x y : Int} {mode : Mode} {h bpc i : Nat} {d : Byte} {op : MicroOp} :
    op ∈ columnByteOps c x y mode h bpc i d ↔ ∃ k : Nat, k < 8 ∧ ∃ r : Nat, columnByteOrigin h bpc i + (k : Int) = r ∧
      i * 8 ≤ r ∧ r < h ∧ op = .plot x (y + (r : Int)) mode (glyphBit c.glyphBitOrder d k) := by
  simp only [columnByteOps, List.mem_filterMap, List.mem_range, Option.ite_none_right_eq_some, Option.some.injEq]
  constructor
  · rintro ⟨k, hk, ⟨hlo, hhi⟩, rfl⟩
    have hr : columnByteOrigin h bpc i + (k : Int) = ((columnByteOrigin h bpc i + (k : Int)).toNat : Nat) := by omega
    exact ⟨k, hk, _, hr, by omega, by omega, by rw [← hr]⟩
  · rintro ⟨k, hk, r, hr, hlo, hhi, rfl⟩
    exact ⟨k, hk, by omega, by rw [hr]⟩

theorem mem_glyphOps {s : State} {x y : Int} {mode : Mode} {h w off : Nat} {ops : List MicroOp} {op : MicroOp}
    (hops : glyphOps s x y mode h w off = some ops) (hop : op ∈ ops) : plotsIn x y w h mode op := by
  obtain ⟨j, hj, column, hcolumn, hop⟩ := mem_gather hops hop
  obtain ⟨i, -, bits, hbits, hop⟩ := mem_gather hcolumn hop
  simp only [Option.bind_eq_bind, Option.bind_eq_some_iff, Option.pure_def, Option.some.injEq] at hbits
  obtain ⟨d, -, rfl⟩ := hbits
  obtain ⟨k, -, r, -, -, hr, rfl⟩ := mem_columnByteOps.mp hop
  exact ⟨j, List.mem_range.mp hj, r, hr, _, rfl⟩

/-- DrawChar plots only inside the cell of the code point. -/
theorem mem_drawChar {s : State} {x y : Int} {c : Byte} {mode : Mode} {w : Int} {ops : List MicroOp} {op : MicroOp}
    (h : drawChar s x y c mode = some (w, ops)) (hop : op ∈ ops) :
    ∃ h n : Nat, fontHeight s = some h ∧ w = n ∧ plotsIn x y n h mode op := by
  obtain ⟨-, -, rfl⟩ | ⟨-, n, -, rfl, ⟨ht, hht, rfl⟩ | ⟨-, rfl⟩ | ⟨ht, off, hht, hl⟩⟩ := drawChar_cases h
  · cases hop
  · exact ⟨ht, n, hht, rfl, mem_spaceOps hop⟩
  · cases hop
  · exact ⟨ht, n, hht, rfl, mem_glyphOps hl hop⟩

theorem plotsIn_paints {x y : Int} {w h : Nat} {mode : Mode} {op : MicroOp} {c : Config}
    (hop : plotsIn x y w h mode op) : op.paints c = true := by
  obtain ⟨_, _, _, _, _, rfl⟩ := hop
  rfl

theorem drawChar_paints {s : State} {x y : Int} {c : Byte} {mode : Mode} {w : Int} {ops : List MicroOp} {cfg : Config}
    (h : drawChar s x y c mode = some (w, ops)) : ∀ op ∈ ops, op.paints cfg = true := fun _ hop => by
  obtain ⟨_, _, -, -, hop⟩ := mem_drawChar h hop
  exact plotsIn_paints hop

/-- On the grid, DrawChar answers the width of the code point. -/
theorem drawChar_width {s : State} {x y : Int} {c : Byte} {mode : Mode} {w : Int} {ops : List MicroOp}
    (hon : beforeEdges s.cfg x y) (h : drawChar s x y c mode = some (w, ops)) :
    ∃ n : Nat, charWidth s c = some n ∧ w = n := by
  obtain ⟨hoff, -⟩ | ⟨-, n, hn, hw, -⟩ := drawChar_cases h
  · exact absurd hon hoff
  · exact ⟨n, hn, hw⟩

/-- A code point of width 0 has no plots. -/
theorem drawChar_zero {s : State} {x y : Int} {c : Byte} {mode : Mode} {ops : List MicroOp}
    (h : drawChar s x y c mode = some (0, ops)) : ops = [] := by
  refine List.eq_nil_iff_forall_not_mem.mpr fun op hop => ?_
  obtain ⟨_, n, -, hn, j, hj, -⟩ := mem_drawChar h hop
  omega

/-! ## DrawString, an equation per case (R171) -/

theorem stringLoop_unread {s : State} {x y h : Int} {mode : Mode} {sw : Int} {c : Byte} {cs : List Byte}
    (hd : drawChar s (x + sw) y c mode = none) : stringLoop s x y h mode sw (c :: cs) = none := by
  rw [stringLoop, hd]
  rfl

/-- A code point of width 0 contributes nothing (R171). -/
theorem stringLoop_zero {s : State} {x y h : Int} {mode : Mode} {sw : Int} {c : Byte} {cs : List Byte}
    {glyph : List MicroOp} (hon : beforeEdges s.cfg (x + sw) y)
    (hd : drawChar s (x + sw) y c mode = some (0, glyph)) :
    stringLoop s x y h mode sw (c :: cs) = stringLoop s x y h mode sw cs := by
  obtain rfl := drawChar_zero hd
  have stays := beforeEdges_iff.mp hon
  rw [stringLoop, hd]
  simp [stays]

/-- A glyph is followed by its separator; the string ends when that leaves the grid on the right (R171). -/
theorem stringLoop_pos {s : State} {x y h : Int} {mode : Mode} {sw : Int} {c : Byte} {cs : List Byte} {w : Nat}
    {glyph : List MicroOp} (hy : y < s.cfg.gridHeight) (hw : 0 < w)
    (hd : drawChar s (x + sw) y c mode = some ((w : Int), glyph)) :
    stringLoop s x y h mode sw (c :: cs) =
      if x + (sw + w + 1) ≥ s.cfg.gridWidth then some (glyph ++ separatorOps (x + (sw + w)) y h)
      else (stringLoop s x y h mode (sw + w + 1) cs).map (glyph ++ separatorOps (x + (sw + w)) y h ++ ·) := by
  have hneg : ¬ ((w : Int) < 0) := by omega
  have hpos : (w : Int) > 0 := by omega
  have hy' : ¬ y ≥ (s.cfg.gridHeight : Int) := by omega
  rw [stringLoop, hd]
  simp only [Option.bind_eq_bind, Option.bind_some, hneg, if_false, hpos, if_true, hy', or_false]
  split
  · rfl
  · cases stringLoop s x y h mode (sw + w + 1) cs <;> rfl

theorem drawString_off {s : State} {x y : Int} {chars : List Byte} {mode : Mode} (h : ¬ beforeEdges s.cfg x y) :
    drawString s x y chars mode = some [] := by
  rw [drawString, if_pos (not_not.mp (mt beforeEdges_iff.mpr h))]

theorem drawString_unread {s : State} {x y : Int} {chars : List Byte} {mode : Mode} (hon : beforeEdges s.cfg x y)
    (hh : fontHeight s = none) : drawString s x y chars mode = none := by
  rw [drawString, if_neg (beforeEdges_iff.mp hon), hh]
  rfl

theorem drawString_above {s : State} {x y : Int} {chars : List Byte} {mode : Mode} {h : Nat}
    (hh : fontHeight s = some h) (hy : y + (h : Int) < 0) : drawString s x y chars mode = some [] := by
  by_cases hon : beforeEdges s.cfg x y
  · rw [drawString, if_neg (beforeEdges_iff.mp hon), hh]
    simp [hy]
  · exact drawString_off hon

theorem drawString_on {s : State} {x y : Int} {chars : List Byte} {mode : Mode} {h : Nat}
    (hon : beforeEdges s.cfg x y) (hh : fontHeight s = some h) (hy : 0 ≤ y + (h : Int)) :
    drawString s x y chars mode = (stringLoop s x y h mode 0 chars).map (separatorOps (x - 1) y h ++ ·) := by
  have hy' : ¬ y + (h : Int) < 0 := by omega
  rw [drawString, if_neg (beforeEdges_iff.mp hon), hh]
  simp only [Option.bind_eq_bind, Option.bind_some, hy', if_false]
  cases stringLoop s x y h mode 0 chars <;> rfl

/-! ## Where the plots of a string lie -/

/-- A plot in the columns `lo` to before `hi` and on the rows y..y+h. -/
def plotsBetween (lo hi y : Int) (h : Nat) (op : MicroOp) : Prop :=
  ∃ x' y' m v, op = .plot x' y' m v ∧ lo ≤ x' ∧ x' < hi ∧ y ≤ y' ∧ y' ≤ y + h

theorem plotsBetween_mono {lo hi lo' hi' y : Int} {h : Nat} {op : MicroOp} (hop : plotsBetween lo hi y h op)
    (hlo : lo' ≤ lo) (hhi : hi ≤ hi') : plotsBetween lo' hi' y h op := by
  obtain ⟨x', y', m, v, rfl, hx, hx', hy, hy'⟩ := hop
  exact ⟨x', y', m, v, rfl, by omega, by omega, hy, hy'⟩

theorem plotsBetween_paints {lo hi y : Int} {h : Nat} {op : MicroOp} {c : Config} (hop : plotsBetween lo hi y h op) :
    op.paints c = true := by
  obtain ⟨_, _, _, _, rfl, -⟩ := hop
  rfl

theorem mem_separatorOps {x y : Int} {h : Nat} {op : MicroOp} (hop : op ∈ separatorOps x y h) :
    plotsBetween x (x + 1) y h op := by
  obtain ⟨⟨a, b⟩, hp, rfl⟩ := mem_plotAll.mp hop
  obtain ⟨rfl, h1, h2⟩ := mem_linePoints_vertical.mp hp
  exact ⟨_, _, _, _, rfl, le_rfl, by omega, by omega, by omega⟩

theorem stringAdvance_cons_zero {s : State} {c : Byte} (cs : List Byte) (hw : charWidth s c = some 0) :
    stringAdvance s (c :: cs) = stringAdvance s cs := by
  simp [stringAdvance, hw]

theorem stringAdvance_cons_pos {s : State} {c : Byte} {w : Nat} (cs : List Byte) (hw : charWidth s c = some w)
    (hpos : 0 < w) : stringAdvance s (c :: cs) = w + 1 + stringAdvance s cs := by
  obtain ⟨n, rfl⟩ := Nat.exists_eq_succ_of_ne_zero hpos.ne'
  simp [stringAdvance, hw]

theorem mem_stringLoop {s : State} {x y : Int} {h : Nat} {mode : Mode} (hh : fontHeight s = some h) {op : MicroOp} :
    ∀ {cs : List Byte} {sw : Int} {ops : List MicroOp}, beforeEdges s.cfg (x + sw) y →
      stringLoop s x y h mode sw cs = some ops → op ∈ ops →
      plotsBetween (x + sw) (x + sw + stringAdvance s cs) y h op
  | [], sw, ops, _, hl, hop => by
    obtain rfl := Option.some.inj hl
    cases hop
  | c :: cs, sw, ops, hon, hl, hop => by
    rcases hd : drawChar s (x + sw) y c mode with _ | ⟨cw, glyph⟩
    · rw [stringLoop_unread hd] at hl
      cases hl
    · obtain ⟨w, hw, rfl⟩ := drawChar_width hon hd
      rcases Nat.eq_zero_or_pos w with rfl | hpos
      · rw [stringLoop_zero hon hd] at hl
        rw [stringAdvance_cons_zero cs hw]
        exact mem_stringLoop hh hon hl hop
      · rw [stringLoop_pos hon.2 hpos hd] at hl
        rw [stringAdvance_cons_pos cs hw hpos]
        have inGlyph : op ∈ glyph → plotsBetween (x + sw) (x + sw + w) y h op := fun hop => by
          obtain ⟨h', n, hh', hn, j, hj, r, hr, v, rfl⟩ := mem_drawChar hd hop
          obtain rfl := Option.some.inj (hh.symm.trans hh')
          exact ⟨_, _, _, _, rfl, by omega, by omega, by omega, by omega⟩
        have drawn : op ∈ glyph ++ separatorOps (x + (sw + w)) y h →
            plotsBetween (x + sw) (x + sw + (w + 1 : Nat)) y h op := fun hop => by
          rcases List.mem_append.mp hop with hop | hop
          · exact plotsBetween_mono (inGlyph hop) le_rfl (by omega)
          · exact plotsBetween_mono (mem_separatorOps hop) (by omega) (by omega)
        split at hl
        · obtain rfl := Option.some.inj hl
          exact plotsBetween_mono (drawn hop) le_rfl (by push_cast; omega)
        · rename_i hgo
          obtain ⟨rest, hrest, rfl⟩ := Option.map_eq_some_iff.mp hl
          rcases List.mem_append.mp hop with hop | hop
          · exact plotsBetween_mono (drawn hop) le_rfl (by push_cast; omega)
          · have hon' : beforeEdges s.cfg (x + (sw + w + 1)) y := ⟨by omega, hon.2⟩
            exact plotsBetween_mono (mem_stringLoop hh hon' hrest hop) (by omega) (by push_cast; omega)

/-- DrawString plots only in the columns from x-1 to its last separator and on the rows y..y+h (R171). -/
theorem mem_drawString {s : State} {x y : Int} {chars : List Byte} {mode : Mode} {ops : List MicroOp} {op : MicroOp}
    (h : drawString s x y chars mode = some ops) (hop : op ∈ ops) :
    ∃ h, fontHeight s = some h ∧ plotsBetween (x - 1) (x + stringAdvance s chars) y h op := by
  by_cases hon : beforeEdges s.cfg x y
  · rcases hh : fontHeight s with _ | h'
    · rw [drawString_unread hon hh] at h
      cases h
    · refine ⟨h', rfl, ?_⟩
      by_cases hy : y + (h' : Int) < 0
      · rw [drawString_above hh hy] at h
        obtain rfl := Option.some.inj h
        cases hop
      · rw [drawString_on hon hh (by omega)] at h
        obtain ⟨rest, hrest, rfl⟩ := Option.map_eq_some_iff.mp h
        rcases List.mem_append.mp hop with hop | hop
        · exact plotsBetween_mono (mem_separatorOps hop) le_rfl (by omega)
        · exact plotsBetween_mono (mem_stringLoop hh (by simpa using hon) hrest hop) (by omega) (by omega)
  · rw [drawString_off hon] at h
    obtain rfl := Option.some.inj h
    cases hop

theorem drawString_paints {s : State} {x y : Int} {chars : List Byte} {mode : Mode} {ops : List MicroOp} {c : Config}
    (h : drawString s x y chars mode = some ops) : ∀ op ∈ ops, op.paints c = true := fun _ hop => by
  obtain ⟨_, -, hop⟩ := mem_drawString h hop
  exact plotsBetween_paints hop

end Sys2Proof.Machine
end

section
/-! What issue of a command can do (R25, R281): CUR takes a list of micro-operations, or the fault record is written. -/

namespace Sys2Proof.Machine

/-! ## The micro-operations of the marquee (R205 to R208) -/

theorem drawEntering_paints {s : State} {reaches : Int → Bool} {ox oy : Int} {chars : List Byte} {ops : List MicroOp}
    {c : Config} (h : drawEntering s reaches ox oy chars = some ops) : ∀ op ∈ ops, op.paints c = true := by
  simp only [drawEntering, Option.bind_eq_bind, Option.bind_eq_some_iff] at h
  obtain ⟨_ | ⟨x, ch⟩, -, h⟩ := h
  · obtain rfl := Option.some.inj h
    simp
  · obtain ⟨⟨w, l⟩, hl, rfl⟩ := Option.map_eq_some_iff.mp h
    exact drawChar_paints hl

theorem shiftLeftOps_paints {s : State} {ox oy : Int} {chars : List Byte} {ops : List MicroOp}
    (h : shiftLeftOps s ox oy chars = some ops) : ∀ op ∈ ops, op.paints s.cfg = true := by
  simp only [shiftLeftOps, Option.bind_eq_bind, Option.bind_eq_some_iff, Option.pure_def, Option.some.injEq] at h
  obtain ⟨glyph, hglyph, rfl⟩ := h
  intro op hop
  rcases List.mem_append.mp hop with hop | hop
  · obtain ⟨i, hi, rfl⟩ := List.mem_map.mp hop
    exact decide_eq_true (List.mem_range.mp hi)
  · exact drawEntering_paints hglyph op hop

theorem shiftRightOps_paints {s : State} {ox oy : Int} {chars : List Byte} {ops : List MicroOp}
    (h : shiftRightOps s ox oy chars = some ops) : ∀ op ∈ ops, op.paints s.cfg = true := by
  simp only [shiftRightOps, Option.bind_eq_bind, Option.bind_eq_some_iff, Option.pure_def, Option.some.injEq] at h
  obtain ⟨glyph, hglyph, rfl⟩ := h
  intro op hop
  rcases List.mem_append.mp hop with hop | hop
  · obtain ⟨i, hi, rfl⟩ := List.mem_map.mp hop
    exact decide_eq_true (List.mem_range.mp (List.mem_reverse.mp hi))
  · exact drawEntering_paints hglyph op hop

theorem marqueeRedraw_paints {s : State} {dx dy ox oy : Int} {ops : List MicroOp}
    (h : marqueeRedraw s dx dy ox oy = some ops) : ∀ op ∈ ops, op.paints s.cfg = true := by
  unfold marqueeRedraw at h
  split at h
  · exact shiftLeftOps_paints h
  · split at h
    · exact shiftRightOps_paints h
    · exact drawString_paints h

/-- STEP_MARQUEE moves the offsets, then only paints, then writes RESULT (R207). -/
theorem stepMarqueeOps_shape {s : State} {ops : List MicroOp} (h : stepMarqueeOps s = some ops) :
    ∃ ox oy body v, ops = .moveMarquee ox oy :: body ++ [.setResult v] ∧ ∀ op ∈ body, op.paints s.cfg = true := by
  simp only [stepMarqueeOps, Option.bind_eq_bind, Option.bind_eq_some_iff, Option.pure_def, Option.some.injEq] at h
  obtain ⟨redraw, hredraw, rfl⟩ := h
  refine ⟨_, _, _, _, rfl, fun op hop => ?_⟩
  have clears : ∀ b : Bool, op ∈ (if b then clearOps s.cfg true else []) → op.paints s.cfg = true := fun b hop => by
    cases b
    · cases hop
    · exact clearOps_paints op hop
  rcases List.mem_append.mp hop with hop | hop
  · rcases List.mem_append.mp hop with hop | hop
    · exact clears _ hop
    · exact clears _ hop
  · exact marqueeRedraw_paints hredraw op hop

@[simp] theorem length_textPrefix (s : State) (n : Nat) : (textPrefix s n).length = n := by
  simp [textPrefix]

/-- DRAW_MARQUEE stores the marquee, then only paints (R205). -/
theorem startMarqueeOps_shape {s : State} {len : Byte} {ops : List MicroOp} (h : startMarqueeOps s len = some ops) :
    ∃ width height draw, ops = .startMarquee (textPrefix s len.toNat) len width height s.a0.toInt s.a1.toInt :: draw ∧
      ∀ op ∈ draw, op.paints s.cfg = true := by
  simp only [startMarqueeOps, Option.bind_eq_bind, Option.bind_eq_some_iff, Option.pure_def, Option.some.injEq] at h
  obtain ⟨width, -, height, -, draw, hdraw, rfl⟩ := h
  exact ⟨width, height, draw, rfl, drawString_paints hdraw⟩

/-! ## Issue -/

/-- The micro-operation leaves RESULT as it is. -/
def MicroOp.keepsResult : MicroOp → Bool
  | .setResult _ => false
  | .readTick => false
  | .readTickByte _ => false
  | .saveDisableIe _ => false
  | .readFlag _ => false
  | _ => true

theorem perform_keepsResult {op : MicroOp} {s t : State} (h : perform op s = .next t) (hop : op.keepsResult = true) :
    t.result = s.result := by
  cases op with
  | plot x y mode v => exact Host.Outcome.next.inj h ▸ plot_result s x y mode v
  | fbWrite i v => rw [(checkedFbWrite_eq_next.mp h).2, fbWrite_result]
  | shiftLeftByte i => rw [(checkedFbWrite_eq_next.mp h).2, fbWrite_result]
  | shiftRightByte i => rw [(checkedFbWrite_eq_next.mp h).2, fbWrite_result]
  | clearFlag k => exact Host.Outcome.next.inj h ▸ writeFlag_result s k _
  | setResult | readTick | readTickByte | saveDisableIe | readFlag => cases hop
  | _ => exact Host.Outcome.next.inj h ▸ rfl

/-- What CUR takes at issue: micro-operations with their indices in range, of which only the last may write RESULT. -/
def issuable (c : Config) (ops : List MicroOp) : Prop :=
  (∀ op ∈ ops, op.inRange c = true) ∧ ∀ op ∈ ops.dropLast, op.keepsResult = true

theorem paints_inRange {c : Config} {op : MicroOp} (h : op.paints c = true) : op.inRange c = true := by
  cases op with
  | plot | fbWrite | shiftLeftByte | shiftRightByte => exact h
  | _ => cases h

theorem paints_keepsResult {c : Config} {op : MicroOp} (h : op.paints c = true) : op.keepsResult = true := by
  cases op with
  | plot | fbWrite | shiftLeftByte | shiftRightByte => rfl
  | _ => cases h

theorem issuable_singleton {c : Config} {op : MicroOp} (h : op.inRange c = true) : issuable c [op] := by
  simp [issuable, h]

theorem issuable_of_paints {c : Config} {ops : List MicroOp} (h : ∀ op ∈ ops, op.paints c = true) : issuable c ops :=
  ⟨fun op hop => paints_inRange (h op hop), fun op hop => paints_keepsResult (h op (List.mem_of_mem_dropLast hop))⟩

theorem issuable_cons {c : Config} {op : MicroOp} {ops : List MicroOp} (hop : op.inRange c = true)
    (hkeeps : op.keepsResult = true) (hops : issuable c ops) : issuable c (op :: ops) := by
  obtain ⟨ranges, keeps⟩ := hops
  refine ⟨by simpa [hop] using ranges, ?_⟩
  cases ops with
  | nil => simp
  | cons op' ops =>
    rw [List.dropLast_cons_cons]
    simpa [hkeeps] using keeps

theorem issuable_paints_then_result {c : Config} {ops : List MicroOp} (v : Word)
    (h : ∀ op ∈ ops, op.paints c = true) : issuable c (ops ++ [.setResult v]) := by
  refine ⟨fun op hop => ?_, fun op hop => ?_⟩
  · rcases List.mem_append.mp hop with hop | hop
    · exact paints_inRange (h op hop)
    · obtain rfl := List.mem_singleton.mp hop
      rfl
  · rw [List.dropLast_concat] at hop
    exact paints_keepsResult (h op hop)

/-- What issue of the command `i` can do: CUR takes micro-operations, or the first fault is recorded with the command's
word. -/
def issuesOrFaults (i : Instr) (s : State) : Prop :=
  (∃ ops, exec i s = .next { s with cur := ops } ∧ issuable s.cfg ops) ∨
  ∃ k, exec i s = .next (raiseFault k (encode i) s)

theorem issuesOrFaults_of_issueOps {i : Instr} {ops : List MicroOp} {s : State} (he : exec i s = issueOps ops s)
    (h : issuable s.cfg ops) : issuesOrFaults i s :=
  .inl ⟨ops, he, h⟩

theorem issuesOrFaults_of_issueFont {i : Instr} {f : State → Option (List MicroOp)} {s : State}
    (he : exec i s = issueFont i f s) (h : ∀ ops, f s = some ops → issuable s.cfg ops) : issuesOrFaults i s := by
  unfold issuesOrFaults
  rw [he]
  obtain ⟨-, he⟩ | ⟨-, -, he⟩ | ⟨ops, -, hops, he⟩ := issueFont_cases i f s
  · exact .inr ⟨_, he⟩
  · exact .inr ⟨_, he⟩
  · exact .inl ⟨ops, he, h ops hops⟩

theorem exec_charWidth (ch : Byte) (s : State) : exec (.charWidth ch) s =
    issueFont (.charWidth ch) (fun s => (charWidth s ch).map fun (w : Nat) => [.setResult (signedResult w)]) s := by
  rw [exec, execCharWidth]
  congr 1
  funext t
  cases charWidth t ch <;> rfl

theorem exec_drawChar (mode : Mode) (ch : Byte) (s : State) : exec (.drawChar mode ch) s =
    issueFont (.drawChar mode ch) (fun s => (drawChar s s.a0.toInt s.a1.toInt ch mode).map fun r =>
      r.2 ++ [.setResult (signedResult r.1)]) s := rfl

theorem exec_drawString (mode : Mode) (len : Byte) (s : State) : exec (.drawString mode len) s =
    issueFont (.drawString mode len)
      (fun s => drawString s s.a0.toInt s.a1.toInt (textPrefix s len.toNat) mode) s := rfl

theorem exec_drawMarquee (len : Byte) (s : State) : exec (.drawMarquee len) s =
    issueFont (.drawMarquee len) (fun s => startMarqueeOps s len) s := rfl

theorem exec_stepMarquee (s : State) : exec .stepMarquee s = issueFont .stepMarquee stepMarqueeOps s := rfl

/-- A font command whose reads can all be made is issued (R284). -/
theorem issueFont_of_some {i : Instr} {f : State → Option (List MicroOp)} {s : State} {ops : List MicroOp}
    (hv : s.fontValid = true) (h : f s = some ops) : issueFont i f s = .next { s with cur := ops } := by
  simp [issueFont, hv, h, issueOps]

/-- A font command with a read past FONT_ROM faults (R284). -/
theorem issueFont_of_none {i : Instr} {f : State → Option (List MicroOp)} {s : State}
    (hv : s.fontValid = true) (h : f s = none) : issueFont i f s = failIssue .fontRange i s := by
  simp [issueFont, hv, h]

theorem issueFont_of_not_valid {i : Instr} {f : State → Option (List MicroOp)} {s : State}
    (hv : s.fontValid = false) : issueFont i f s = failIssue .fontNotSelected i s := by
  simp [issueFont, hv]

theorem exec_tickReadByte (idx : Byte) (s : State) : exec (.tickReadByte idx) s =
    if idx.toNat < s.cfg.tickWidth.lanes then issueOps [.readTickByte idx] s
    else failIssue .illegalCommand (.tickReadByte idx) s := rfl

theorem exec_textWrite (ch : Byte) (s : State) : exec (.textWrite ch) s =
    if s.a0.toInt < 0 ∨ s.a0.toInt ≥ textSize then failIssue .illegalArgument (.textWrite ch) s
    else issueOps [.setText (BitVec.ofNat 8 s.a0.toInt.toNat) ch] s := rfl

theorem exec_flagRead_of_lt {idx : Byte} (h : idx.toNat < 2) (s : State) :
    exec (.flagRead idx) s = issueOps [.readFlag ⟨idx.toNat, h⟩] s := by
  simp [exec, execFlagRead, flagIndex, h]

theorem exec_flagRead_of_ge {idx : Byte} (h : ¬ idx.toNat < 2) (s : State) :
    exec (.flagRead idx) s = failIssue .illegalCommand (.flagRead idx) s := by
  simp [exec, execFlagRead, flagIndex, h]

theorem exec_flagClear_of_lt {idx : Byte} (h : idx.toNat < 2) (s : State) :
    exec (.flagClear idx) s = issueOps [.clearFlag ⟨idx.toNat, h⟩] s := by
  simp [exec, execFlagClear, flagIndex, h]

theorem exec_flagClear_of_ge {idx : Byte} (h : ¬ idx.toNat < 2) (s : State) :
    exec (.flagClear idx) s = failIssue .illegalCommand (.flagClear idx) s := by
  simp [exec, execFlagClear, flagIndex, h]

/-- Every command is issued or faults (R25, R281). -/
theorem exec_issuesOrFaults (i : Instr) (s : State) : issuesOrFaults i s := by
  cases i with
  | writePixel | selectFont | tickRead | ieSaveDisable | ieRestore =>
    exact issuesOrFaults_of_issueOps rfl (issuable_singleton rfl)
  | clear v => exact issuesOrFaults_of_issueOps rfl (issuable_of_paints clearOps_paints)
  | drawLine | drawBox | drawFilledBox | drawCircle =>
    exact issuesOrFaults_of_issueOps rfl (issuable_of_paints plotAll_paints)
  | drawTestPattern kind =>
    refine issuesOrFaults_of_issueOps rfl (issuable_of_paints fun op hop => ?_)
    obtain ⟨ui, -, rfl⟩ := List.mem_map.mp hop
    rfl
  | charWidth ch =>
    refine issuesOrFaults_of_issueFont (exec_charWidth ch s) fun ops hops => ?_
    obtain ⟨w, -, rfl⟩ := Option.map_eq_some_iff.mp hops
    exact issuable_singleton rfl
  | drawChar mode ch =>
    refine issuesOrFaults_of_issueFont (exec_drawChar mode ch s) fun ops hops => ?_
    obtain ⟨⟨w, l⟩, hl, rfl⟩ := Option.map_eq_some_iff.mp hops
    exact issuable_paints_then_result _ (drawChar_paints hl)
  | drawString mode len =>
    exact issuesOrFaults_of_issueFont (exec_drawString mode len s) fun ops hops => issuable_of_paints (drawString_paints hops)
  | drawMarquee len =>
    refine issuesOrFaults_of_issueFont (exec_drawMarquee len s) fun ops hops => ?_
    obtain ⟨_, _, draw, rfl, hdraw⟩ := startMarqueeOps_shape hops
    exact issuable_cons (by simp [MicroOp.inRange]) rfl (issuable_of_paints hdraw)
  | stepMarquee =>
    refine issuesOrFaults_of_issueFont (exec_stepMarquee s) fun ops hops => ?_
    obtain ⟨_, _, body, v, rfl, hbody⟩ := stepMarqueeOps_shape hops
    exact issuable_cons rfl rfl (issuable_paints_then_result v hbody)
  | textWrite ch =>
    by_cases h : s.a0.toInt < 0 ∨ s.a0.toInt ≥ textSize
    · exact .inr ⟨_, by rw [exec_textWrite, if_pos h, failIssue]⟩
    · exact issuesOrFaults_of_issueOps (by rw [exec_textWrite, if_neg h]) (issuable_singleton rfl)
  | tickReadByte idx =>
    by_cases h : idx.toNat < s.cfg.tickWidth.lanes
    · exact issuesOrFaults_of_issueOps (by rw [exec_tickReadByte, if_pos h])
        (issuable_singleton (op := .readTickByte idx) (decide_eq_true h))
    · exact .inr ⟨_, by rw [exec_tickReadByte, if_neg h, failIssue]⟩
  | flagRead idx =>
    by_cases h : idx.toNat < 2
    · exact issuesOrFaults_of_issueOps (exec_flagRead_of_lt h s) (issuable_singleton rfl)
    · exact .inr ⟨_, by rw [exec_flagRead_of_ge h, failIssue]⟩
  | flagClear idx =>
    by_cases h : idx.toNat < 2
    · exact issuesOrFaults_of_issueOps (exec_flagClear_of_lt h s) (issuable_singleton rfl)
    · exact .inr ⟨_, by rw [exec_flagClear_of_ge h, failIssue]⟩

/-! ## The fault record (R281) -/

theorem FaultKind.code_toNat (k : FaultKind) : 1 ≤ k.code.toNat ∧ k.code.toNat ≤ 4 := by
  cases k <;> decide

/-- A fault writes the fault record and empties CUR, and nothing else. -/
theorem raiseFault_frame (k : FaultKind) (w : Word) (s : State) : raiseFault k w s =
    { s with cur := [], faultCode := (raiseFault k w s).faultCode, faultCmd := (raiseFault k w s).faultCmd } := by
  unfold raiseFault
  split <;> rfl

/-- Issue that fails with CUR empty and no fault recorded writes the fault record and nothing else. -/
theorem failIssue_first {k : FaultKind} {i : Instr} {s : State} (hf : s.faultCode = faultNone) (hc : s.cur = []) :
    failIssue k i s = .next { s with faultCode := k.code, faultCmd := encode i } := by
  rw [failIssue, raiseFault_first hf, ← hc]

/-- Settles O55. -/
theorem faultsArePrecise : Obligations.FaultsArePrecise := by
  intro s i
  obtain ⟨ops, he, -⟩ | ⟨k, he⟩ := exec_issuesOrFaults i s
  · exact .inl ⟨ops, he⟩
  · refine .inr ⟨_, he, raiseFault_frame k _ s, fun hf => ?_⟩
    rw [raiseFault_first hf]
    exact ⟨rfl, k.code_toNat⟩

/-! ## The font commands without a font (R284) -/

/-- Each font command is issued through `issueFont`. -/
theorem exec_of_usesFont {i : Instr} (h : usesFont i = true) : ∃ f, ∀ s, exec i s = issueFont i f s := by
  cases i with
  | charWidth ch => exact ⟨_, exec_charWidth ch⟩
  | drawChar mode ch => exact ⟨_, exec_drawChar mode ch⟩
  | drawString mode len => exact ⟨_, exec_drawString mode len⟩
  | drawMarquee len => exact ⟨_, exec_drawMarquee len⟩
  | stepMarquee => exact ⟨_, exec_stepMarquee⟩
  | _ => cases h

/-- Settles O24. -/
theorem fontNotSelectedFaults : Obligations.FontNotSelectedFaults := by
  intro s i hi hv hf hc
  obtain ⟨f, hexec⟩ := exec_of_usesFont hi
  rw [hexec, issueFont_of_not_valid hv, failIssue_first hf hc]
  rfl

/-! ## The commands of one micro-operation -/

/-- Settles O17. -/
theorem selectFontCompletes : Obligations.SelectFontCompletes := fun _ => ⟨rfl, rfl⟩

/-- Settles O26: an index in range is its own low byte. -/
theorem textWriteCompletes : Obligations.TextWriteCompletes := by
  constructor
  · intro s ch n hwf hn hlt
    have inRange : ¬ (s.a0.toInt < 0 ∨ s.a0.toInt ≥ textSize) := by
      simp only [textSize]
      omega
    have index : (BitVec.ofNat 8 n).toNat = n := Nat.mod_eq_of_lt hlt
    refine ⟨{ s with cur := [], text := Memory.write textUnlisted s.text n ch }, ?_, ?_, rfl, ?_, ?_⟩
    · rw [exec_textWrite, if_neg inRange, hn]
      rfl
    · rw [performAll_cons (t := { s with cur := [], text := Memory.write textUnlisted s.text n ch })]
      · rfl
      · rw [perform, index]
    · exact Memory.read_write_same hwf
    · exact fun a ha => Memory.read_write_other s.text ha.symm
  · intro s ch hf hc hout
    rw [exec_textWrite, if_pos (show s.a0.toInt < 0 ∨ s.a0.toInt ≥ textSize from hout)]
    exact failIssue_first hf hc

/-- Settles O20: past an edge DrawChar answers -1, and on the grid 0 for an unrenderable code point. -/
theorem drawCharDrawsNothing : Obligations.DrawCharDrawsNothing := by
  intro s mode ch hv
  have issued : ∀ r, drawChar s s.a0.toInt s.a1.toInt ch mode = some (r, []) →
      exec (.drawChar mode ch) s = .next { s with cur := [.setResult (signedResult r)] } := by
    intro r hr
    exact (exec_drawChar mode ch s).trans (issueFont_of_some hv (by rw [hr]; rfl))
  refine ⟨fun hoff => ⟨issued (-1) (drawChar_off fun hon => beforeEdges_iff.mp hon hoff), rfl⟩,
    fun hx hy hc first count h4 h5 hr => ⟨issued 0 (drawChar_of_unrenderable ⟨hx, hy⟩ hc ?_), rfl⟩⟩
  rw [glyphIndex_eq_some h4 h5, if_neg hr]

end Sys2Proof.Machine
end

section
/-! The step (R74): an equation per event and per step of the block, the invariant, and who writes what. -/

namespace Sys2Proof.Machine

/-! ## The step, an equation per event -/

theorem step_of_valid {s : State} (hv : s.cfg.valid = true) : step s = sequenceStep s := by
  rw [step, checkedStep, if_pos hv]

theorem step_of_not_valid {s : State} (hv : s.cfg.valid = false) : step s = .refused .invalidConfig := by
  simp [step, checkedStep, hv]

theorem step_nil {s : State} (hv : s.cfg.valid = true) (he : s.env = []) : step s = blockStep s := by
  simp only [step_of_valid hv, sequenceStep, he]

theorem step_wait {s : State} {rest : List EnvEvent} (hv : s.cfg.valid = true) (he : s.env = .wait :: rest) :
    step s = blockStep { s with env := rest } := by
  simp only [step_of_valid hv, sequenceStep, he]

theorem step_request {s : State} {n : Source} {rest : List EnvEvent} (hv : s.cfg.valid = true)
    (he : s.env = .request n :: rest) : step s = .next (requestSource n { s with env := rest }) := by
  simp only [step_of_valid hv, sequenceStep, he]

theorem step_busBusy {s : State} {b : Bool} {rest : List EnvEvent} (hv : s.cfg.valid = true)
    (he : s.env = .busBusy b :: rest) : step s = .next { s with env := rest, busBusy := b } := by
  simp only [step_of_valid hv, sequenceStep, he]

theorem step_access {s : State} {a : HostAccess} {rest : List EnvEvent} (hv : s.cfg.valid = true)
    (he : s.env = .access a :: rest) (hi : idle s = true) : step s = .next (hostAccess a { s with env := rest }) := by
  simp only [step_of_valid hv, sequenceStep, he, hostStep, hi, if_true]

theorem step_access_waits {s : State} {a : HostAccess} {rest : List EnvEvent} (hv : s.cfg.valid = true)
    (he : s.env = .access a :: rest) (hi : idle s = false) : step s = blockStep s := by
  simp [step_of_valid hv, sequenceStep, he, hostStep, hi]

theorem step_earlyAccess {s : State} {a : HostAccess} {rest : List EnvEvent} (hv : s.cfg.valid = true)
    (he : s.env = .earlyAccess a :: rest) : step s = .next (hostAccess a { s with env := rest }) := by
  simp only [step_of_valid hv, sequenceStep, he]

theorem step_readFault {s : State} {r : FaultReg} {x : Nat} {rest : List EnvEvent} (hv : s.cfg.valid = true)
    (he : s.env = .readFault r x :: rest) :
    step s = .next (setHostVar x (faultValue s r) { s with env := rest }) := by
  simp only [step_of_valid hv, sequenceStep, he]

theorem step_sumLanes {s : State} {x b n : Nat} {rest : List EnvEvent} (hv : s.cfg.valid = true)
    (he : s.env = .sumLanes x b n :: rest) :
    step s = .next (setHostVar x (laneSum s b n) { s with env := rest }) := by
  simp only [step_of_valid hv, sequenceStep, he]

theorem step_issue {s : State} {w : Word} {rest : List EnvEvent} (hv : s.cfg.valid = true)
    (he : s.env = .issue w :: rest) (hi : idle s = true) : step s = presentWord w { s with env := rest } := by
  simp only [step_of_valid hv, sequenceStep, he, hostStep, hi, if_true]

theorem step_issue_waits {s : State} {w : Word} {rest : List EnvEvent} (hv : s.cfg.valid = true)
    (he : s.env = .issue w :: rest) (hi : idle s = false) : step s = blockStep s := by
  simp [step_of_valid hv, sequenceStep, he, hostStep, hi]

/-! ## The block's own step, an equation per case (R291) -/

theorem blockStep_enter {s : State} {n : Source} (hc : s.ctx = .main) (hn : nextSource s = some n) :
    blockStep s = .next (enter n s) := by
  simp only [blockStep, hc, hn]

theorem blockStep_perform {s : State} {op : MicroOp} {rest : List MicroOp} (hc : s.ctx = .main)
    (hn : nextSource s = none) (hcur : s.cur = op :: rest) : blockStep s = perform op { s with cur := rest } := by
  simp only [blockStep, hc, hn, hcur]

theorem blockStep_idle {s : State} (hc : s.ctx = .main) (hn : nextSource s = none) (hcur : s.cur = []) :
    blockStep s = .next s := by
  simp only [blockStep, hc, hn, hcur]

/-! ## Presenting a word, an equation per case (R25, R282) -/

theorem presentWord_of_some {w : Word} {i : Instr} {s : State} (hf : s.faultCode = faultNone)
    (hd : decode s.cfg.tickWidth w = some i) : presentWord w s = exec i s := by
  simp [presentWord, hf, hd]

theorem presentWord_of_none {w : Word} {s : State} (hf : s.faultCode = faultNone)
    (hd : decode s.cfg.tickWidth w = none) : presentWord w s = .next (raiseFault .illegalCommand w s) := by
  simp [presentWord, hf, hd]

/-- Settles O5. -/
theorem stepRunsDecoded : Obligations.StepRunsDecoded := by
  intro s w rest hv he hi hf
  refine ⟨fun i hd => (step_issue hv he hi).trans (presentWord_of_some hf hd), fun hd => ?_⟩
  obtain ⟨-, -, hcur⟩ := idle_iff.mp hi
  calc step s = presentWord w { s with env := rest } := step_issue hv he hi
    _ = .next (raiseFault .illegalCommand w { s with env := rest }) := presentWord_of_none hf hd
    _ = .next { s with env := rest, faultCode := 1#8, faultCmd := w } := by
        rw [raiseFault_first (s := { s with env := rest }) (k := .illegalCommand) (w := w) hf, ← hcur]
        rfl

/-! ## The word that is placed (log entry 7) -/

/-- The low 32 bits of a word are the word. -/
theorem tableWord_toNat (w : Word) : tableWord 32 w.toNat = w := by
  rw [tableWord, Nat.mod_eq_of_lt w.isLt, BitVec.ofNat_toNat, BitVec.setWidth_eq]

theorem nextSource_eq_none {s : State} : nextSource s = none ↔ ∀ n, eligible s n = false := by
  unfold nextSource
  constructor
  · intro h n
    split at h <;> try split at h <;> try split at h
    all_goals cases n <;> simp_all
  · intro h
    simp [h]

/-- No source is eligible once the pending bits that are enabled have been taken away. -/
theorem idle_readyForWord (w : Word) (s : State) : idle (readyForWord w s) = true := by
  refine idle_iff.mpr ⟨rfl, nextSource_eq_none.mpr fun n => ?_, rfl⟩
  simp only [eligible, pendBit, ieBit, readyForWord, BitVec.getLsbD_and, BitVec.getLsbD_not]
  cases s.ie.getLsbD (sourceBit n) <;> simp

/-- Settles O7. -/
theorem fetchWordRuns : Obligations.FetchWordRuns := by
  refine fun s i => ⟨fun hv hwf => ?_, step_of_not_valid⟩
  rw [State.withFetchWord, tableWord_toNat]
  exact (step_issue (s := readyForWord (encode i) s) hv rfl (idle_readyForWord _ s)).trans
    (presentWord_of_some rfl (decodeEncode _ i hwf))

/-! ## What each kind of step leaves unchanged -/

/-- The host's access writes the argument registers or a host variable, and nothing else. -/
theorem hostAccess_frame (a : HostAccess) (s : State) : hostAccess a s = { s with
    a0 := (hostAccess a s).a0, a1 := (hostAccess a s).a1, a2 := (hostAccess a s).a2, a3 := (hostAccess a s).a3,
    hostVars := (hostAccess a s).hostVars } := by
  cases a with
  | setArg r v => cases r <;> rfl
  | setArgVar r x => cases r <;> rfl
  | getResult x => rfl

/-- Presenting a word writes CUR and the fault record, and nothing else (R25, R281); the list CUR takes is one that
issue gives. -/
theorem presentWord_frame {w : Word} {s t : State} (h : presentWord w s = .next t) :
    t = { s with cur := t.cur, faultCode := t.faultCode, faultCmd := t.faultCmd } := by
  obtain ⟨-, he⟩ | ⟨-, -, he⟩ | ⟨i, -, -, he⟩ := presentWord_cases w s
  · obtain rfl := Host.Outcome.next.inj (he.symm.trans h)
    rfl
  · obtain rfl := Host.Outcome.next.inj (he.symm.trans h)
    exact (raiseFault_frame _ _ s).trans (by rw [raiseFault_cur])
  · obtain ⟨ops, hx, -⟩ | ⟨k, hx⟩ := exec_issuesOrFaults i s
    · obtain rfl := Host.Outcome.next.inj ((he.trans hx).symm.trans h)
      rfl
    · obtain rfl := Host.Outcome.next.inj ((he.trans hx).symm.trans h)
      exact (raiseFault_frame _ _ s).trans (by rw [raiseFault_cur])

/-- A step is one of the environment or the host, a word presented to an idle block, or a step of the block itself. -/
theorem step_kinds {s t : State} (h : step s = .next t) :
    (t = { s with
      env := t.env, pend := t.pend, busBusy := t.busBusy, hostVars := t.hostVars, a0 := t.a0, a1 := t.a1, a2 := t.a2,
      a3 := t.a3 }) ∨
    (idle s = true ∧ ∃ w rest, s.env = .issue w :: rest ∧ presentWord w { s with env := rest } = .next t) ∨
    ∃ env, blockStep { s with env := env } = .next t := by
  obtain ⟨-, ⟨n, rest, -, rfl⟩ | ⟨b, rest, -, rfl⟩ | ⟨a, rest, -, rfl⟩ | ⟨w, rest, he, hi, hw⟩ | ⟨x, v, rest, -, rfl⟩ |
    ⟨rest, -, hb⟩ | hb⟩ := step_cases h
  · exact .inl rfl
  · exact .inl rfl
  · left
    rw [hostAccess_frame]
  · exact .inr (.inl ⟨hi, w, rest, he, hw⟩)
  · exact .inl rfl
  · exact .inr (.inr ⟨rest, hb⟩)
  · exact .inr (.inr ⟨s.env, hb⟩)

end Sys2Proof.Machine
end

section
/-! The invariant: reset establishes it, every step keeps it, and from a state that has it every step goes on (R60, R281). -/

namespace Sys2Proof.Machine

/-- Settles O58. -/
theorem resetHasInv : Obligations.ResetHasInv := by
  intro c hc
  exact ⟨hc, rfl, rfl, rfl, Nat.two_pow_pos _, .inl rfl, .inl rfl, rfl, rfl, Nat.zero_le _, fun _ => rfl, fun _ => rfl,
    fun _ => rfl, (fun h => nomatch h), fun _ => ⟨rfl, rfl, rfl⟩⟩

/-! ## Micro-operations -/

/-- Painting keeps the invariant. -/
theorem inv_of_fb {s t : State} (hs : s.Inv) (frame : t = { s with fb := t.fb }) (hwf : t.fbWf) : t.Inv := by
  obtain ⟨hcfg, -, hrest⟩ := hs
  rw [frame] at hwf ⊢
  exact ⟨hcfg, hwf, hrest⟩

theorem Memory.wf_write_text {s : State} (h : Memory.wf textUnlisted textSize s.text = true) (i v : Byte) :
    Memory.wf textUnlisted textSize (Memory.write textUnlisted s.text i.toNat v) = true :=
  Memory.wf_write h i.isLt

/-- A marquee text has at most MARQUEE_MAX bytes: its length is a byte (R205). -/
theorem Memory.wf_writeList_mqText {s : State} (h : Memory.wf textUnlisted marqueeMax s.mqText = true)
    (chars : List Byte) (len : Byte) :
    Memory.wf textUnlisted marqueeMax (Memory.writeList textUnlisted s.mqText 0 (chars.take len.toNat)) = true := by
  refine Memory.wf_writeList h ?_
  have hlen : len.toNat < 256 := len.isLt
  rw [List.length_take, marqueeMax]
  omega

/-- Every micro-operation in range keeps the invariant. -/
theorem perform_inv {op : MicroOp} {s t : State} (hs : s.Inv) (h : perform op s = .next t) : t.Inv := by
  have hfbWf : t.fbWf := by
    obtain ⟨-, hfb, -⟩ := hs
    exact perform_fbWf h hfb
  cases op with
  | plot x y mode v =>
    obtain rfl := Host.Outcome.next.inj h
    exact inv_of_fb hs (plot_frame s x y mode v) hfbWf
  | fbWrite i v =>
    obtain ⟨-, rfl⟩ := checkedFbWrite_eq_next.mp h
    exact inv_of_fb hs rfl hfbWf
  | shiftLeftByte i =>
    obtain ⟨-, rfl⟩ := checkedFbWrite_eq_next.mp h
    exact inv_of_fb hs rfl hfbWf
  | shiftRightByte i =>
    obtain ⟨-, rfl⟩ := checkedFbWrite_eq_next.mp h
    exact inv_of_fb hs rfl hfbWf
  | setFont base =>
    obtain rfl := Host.Outcome.next.inj h
    obtain ⟨hcfg, hfb, htext, hmq, htick, hflag0, hflag1, hctx, hcur, hcode, hcmd, hstop, -, hrows⟩ := hs
    exact ⟨hcfg, hfb, htext, hmq, htick, hflag0, hflag1, hctx, hcur, hcode, hcmd, hstop, (fun h => nomatch h), hrows⟩
  | setText i v =>
    obtain rfl := Host.Outcome.next.inj h
    obtain ⟨hcfg, hfb, htext, hrest⟩ := hs
    exact ⟨hcfg, hfb, Memory.wf_write_text htext i v, hrest⟩
  | startMarquee chars len width height ox oy =>
    obtain rfl := Host.Outcome.next.inj h
    obtain ⟨hcfg, hfb, htext, hmq, hrest⟩ := hs
    exact ⟨hcfg, hfb, htext, Memory.wf_writeList_mqText hmq chars len, hrest⟩
  | clearFlag k =>
    obtain rfl := Host.Outcome.next.inj h
    obtain ⟨hcfg, hfb, htext, hmq, htick, hflag0, hflag1, hrest⟩ := hs
    unfold writeFlag
    split
    · exact ⟨hcfg, hfb, htext, hmq, htick, .inl rfl, hflag1, hrest⟩
    · exact ⟨hcfg, hfb, htext, hmq, htick, hflag0, .inl rfl, hrest⟩
  | moveMarquee | setResult | readTick | readTickByte | saveDisableIe | restoreIe | readFlag =>
    obtain rfl := Host.Outcome.next.inj h
    exact hs

/-! ## Handlers -/

theorem scan_inv {s : State} (hs : s.Inv) : (scan s).Inv := by
  obtain ⟨hcfg, hfb, htext, hmq, htick, hflag0, hflag1, hctx, hcur, hcode, hcmd, hstop, hfont, -⟩ := hs
  exact ⟨hcfg, hfb, htext, hmq, htick, hflag0, hflag1, hctx, hcur, hcode, hcmd, hstop, hfont, fun _ => rfl,
    (fun h => nomatch h)⟩

theorem incTick_inv {s : State} (hs : s.Inv) : (incTick s).Inv := by
  obtain ⟨hcfg, hfb, htext, hmq, -, hrest⟩ := hs
  refine ⟨hcfg, hfb, htext, hmq, ?_, hrest⟩
  rw [incTick_tick_toNat]
  exact Nat.mod_lt _ (Nat.two_pow_pos _)

/-- A handler, its entry and its return keep the invariant (R292). -/
theorem enter_inv {s : State} (hs : s.Inv) (n : Source) : (enter n s).Inv := by
  obtain ⟨-, -, -, -, -, -, -, ctx, -⟩ := id hs
  cases n with
  | timer =>
    rcases Bool.eq_false_or_eq_true s.busBusy with busy | free
    · rw [enter_timer_of_busy busy, ← ctx]
      exact incTick_inv hs
    · rw [enter_timer_of_free free, ← ctx]
      exact incTick_inv (scan_inv hs)
  | edge0 =>
    obtain ⟨hcfg, hfb, htext, hmq, htick, -, hflag1, -, hrest⟩ := hs
    exact ⟨hcfg, hfb, htext, hmq, htick, .inr rfl, hflag1, rfl, hrest⟩
  | edge1 =>
    obtain ⟨hcfg, hfb, htext, hmq, htick, hflag0, -, -, hrest⟩ := hs
    exact ⟨hcfg, hfb, htext, hmq, htick, hflag0, .inr rfl, rfl, hrest⟩

/-! ## The fault record and issue -/

theorem raiseFault_inv {s : State} (hs : s.Inv) (k : FaultKind) (w : Word) : (raiseFault k w s).Inv := by
  obtain ⟨hcfg, hfb, htext, hmq, htick, hflag0, hflag1, hctx, -, hcode, hcmd, -, hfont⟩ := hs
  by_cases hf : s.faultCode = faultNone
  · rw [raiseFault_first hf]
    refine ⟨hcfg, hfb, htext, hmq, htick, hflag0, hflag1, hctx, rfl, k.code_toNat.2, fun hnone => ?_, fun _ => rfl, hfont⟩
    cases k <;> cases hnone
  · rw [raiseFault_later hf]
    exact ⟨hcfg, hfb, htext, hmq, htick, hflag0, hflag1, hctx, rfl, hcode, hcmd, fun _ => rfl, hfont⟩

/-- A word is presented without a fault of the machine, and the invariant is kept (R25, R281). -/
theorem presentWord_inv {s : State} (hs : s.Inv) (w : Word) : ∃ t, presentWord w s = .next t ∧ t.Inv := by
  obtain ⟨-, he⟩ | ⟨-, -, he⟩ | ⟨i, hf, -, he⟩ := presentWord_cases w s
  · exact ⟨s, he, hs⟩
  · exact ⟨_, he, raiseFault_inv hs _ w⟩
  · obtain ⟨ops, hx, hops, -⟩ | ⟨k, hx⟩ := exec_issuesOrFaults i s
    · obtain ⟨hcfg, hfb, htext, hmq, htick, hflag0, hflag1, hctx, -, hcode, hcmd, -, hfont⟩ := hs
      exact ⟨_, he.trans hx, hcfg, hfb, htext, hmq, htick, hflag0, hflag1, hctx, List.all_eq_true.mpr hops, hcode, hcmd,
        fun hne => absurd hf hne, hfont⟩
    · exact ⟨_, he.trans hx, raiseFault_inv hs k _⟩

/-! ## The step -/

/-- The block's own step goes on and keeps the invariant (R291). -/
theorem blockStep_inv {s : State} (hs : s.Inv) : ∃ t, blockStep s = .next t ∧ t.Inv := by
  obtain ⟨hcfg, hfb, htext, hmq, htick, hflag0, hflag1, hctx, hcur, hcode, hcmd, hstop, hfont⟩ := id hs
  rcases hn : nextSource s with _ | n
  · rcases hc : s.cur with _ | ⟨op, rest⟩
    · exact ⟨s, blockStep_idle hctx hn hc, hs⟩
    · rw [blockStep_perform hctx hn hc]
      rw [hc, List.all_cons, Bool.and_eq_true] at hcur
      obtain ⟨hop, hrest⟩ := hcur
      have noFault : s.faultCode ≠ faultNone → rest = [] := fun hne => by
        rw [hstop hne] at hc
        cases hc
      have taken : State.Inv { s with cur := rest } :=
        ⟨hcfg, hfb, htext, hmq, htick, hflag0, hflag1, hctx, hrest, hcode, hcmd, noFault,
          hfont⟩
      obtain ⟨t, ht⟩ := perform_inRange (s := { s with cur := rest }) hop
      exact ⟨t, ht, perform_inv taken ht⟩
  · exact ⟨enter n s, blockStep_enter hctx hn, enter_inv hs n⟩

/-- Every step goes on and keeps the invariant, whatever the environment does. -/
theorem step_inv {s : State} (hs : s.Inv) : ∃ t, step s = .next t ∧ t.Inv := by
  have hv := hs.1
  rcases he : s.env with _ | ⟨e, rest⟩
  · rw [step_nil hv he]
    exact blockStep_inv hs
  · cases e with
    | wait =>
      rw [step_wait hv he]
      exact blockStep_inv (s := { s with env := rest }) hs
    | request n => exact ⟨_, step_request hv he, hs⟩
    | busBusy b => exact ⟨_, step_busBusy hv he, hs⟩
    | access a =>
      rcases hi : idle s with _ | _
      · rw [step_access_waits hv he hi]
        exact blockStep_inv hs
      · refine ⟨_, step_access hv he hi, ?_⟩
        rw [hostAccess_frame]
        exact hs
    | earlyAccess a =>
      refine ⟨_, step_earlyAccess hv he, ?_⟩
      rw [hostAccess_frame]
      exact hs
    | readFault r x => exact ⟨_, step_readFault hv he, hs⟩
    | issue w =>
      rcases hi : idle s with _ | _
      · rw [step_issue_waits hv he hi]
        exact blockStep_inv hs
      · rw [step_issue hv he hi]
        exact presentWord_inv (s := { s with env := rest }) hs w
    | sumLanes x b n => exact ⟨_, step_sumLanes hv he, hs⟩

/-- The parameters never change (R7). -/
theorem step_cfg {s t : State} (h : step s = .next t) : t.cfg = s.cfg := by
  obtain frame | ⟨-, w, rest, -, hw⟩ | ⟨env, hb⟩ := step_kinds h
  · rw [frame]
  · rw [presentWord_frame hw]
  · obtain ⟨-, rfl⟩ | ⟨-, n, -, rfl⟩ | ⟨-, -, op, rest, -, hp⟩ | ⟨-, -, -, rfl⟩ := blockStep_cases hb
    · rfl
    · rw [enter_cfg]
    · rw [perform_cfg hp]
    · rfl

/-- Settles O59. -/
theorem stepKeepsInv : Obligations.StepKeepsInv := by
  intro s t hs h
  obtain ⟨u, hu, hinv⟩ := step_inv hs
  obtain rfl := Host.Outcome.next.inj (hu.symm.trans h)
  exact ⟨hinv, step_cfg h⟩

/-- Settles O60. -/
theorem invStepsOn : Obligations.InvStepsOn := by
  intro s hs
  obtain ⟨t, ht, -⟩ := step_inv hs
  exact ⟨t, ht⟩

end Sys2Proof.Machine
end

section
/-! Who writes what: the fields each step leaves alone (R22, R26, R33, R281), requests, dispatch and the enables. -/

namespace Sys2Proof.Machine

/-! ## Requests and dispatch (R288 to R294) -/

/-- Setting a bit that is set changes nothing. -/
theorem putBit_of_getLsbD {v : BitVec 3} {n : Nat} {b : Bool} (h : v.getLsbD n = b) (hn : n < 3) : putBit v n b = v := by
  apply BitVec.eq_of_getLsbD_eq
  intro i hi
  by_cases hin : i = n
  · rw [hin, putBit_getLsbD_same v b hn, h]
  · exact putBit_getLsbD_other v b hin

theorem pendBit_requestSource_same (s : State) (n : Source) : pendBit (requestSource n s) n = true :=
  putBit_getLsbD_same s.pend true (sourceBit_lt n)

theorem pendBit_requestSource_other (s : State) {m n : Source} (h : m ≠ n) :
    pendBit (requestSource n s) m = pendBit s m :=
  putBit_getLsbD_other s.pend true (sourceBit_injective.ne h)

/-- Settles O48. -/
theorem requestSetsPending : Obligations.RequestSetsPending := by
  intro s n rest hv he
  refine ⟨_, step_request hv he, rfl, pendBit_requestSource_same _ n, fun m hm => pendBit_requestSource_other _ hm,
    fun hp => putBit_of_getLsbD hp (sourceBit_lt n), ?_⟩
  rintro rfl inTime
  simp only [timerInTime, timerArrives, he, Bool.not_true, Bool.false_or, Bool.and_eq_true, Bool.not_eq_true'] at inTime
  exact inTime.2

theorem eligible_iff {s : State} {n : Source} : eligible s n = true ↔ pendBit s n = true ∧ ieBit s n = true :=
  Bool.and_eq_true_iff

/-- Settles O49: `nextSource` tries the sources in the order of R287. -/
theorem dispatchIsObligatory : Obligations.DispatchIsObligatory := by
  intro s hv he hc
  simp only [← eligible_iff, step_nil hv he]
  refine ⟨fun hp hi => blockStep_enter hc ?_, fun h0 hp hi => blockStep_enter hc ?_,
    fun h0 h1 hp hi => blockStep_enter hc ?_, fun hnone op rest hcur => blockStep_perform hc ?_ hcur⟩
  · simp [nextSource, eligible_iff.mpr ⟨hp, hi⟩]
  · simp [nextSource, h0, eligible_iff.mpr ⟨hp, hi⟩]
  · simp [nextSource, h0, h1, eligible_iff.mpr ⟨hp, hi⟩]
  · exact nextSource_eq_none.mpr fun n => by simpa using hnone n

/-! ## The enables (R256, R257) -/

theorem ieBit_writeIe_same (s : State) (n : Source) (b : Bool) : ieBit (writeIe n b s) n = b :=
  putBit_getLsbD_same s.ie b (sourceBit_lt n)

theorem ieBit_writeIe_other (s : State) {m n : Source} (b : Bool) (h : m ≠ n) :
    ieBit (writeIe n b s) m = ieBit s m :=
  putBit_getLsbD_other s.ie b (sourceBit_injective.ne h)

/-- Settles O42. -/
theorem enablesComplete : Obligations.EnablesComplete := fun _ src =>
  ⟨⟨_, rfl, rfl, rfl, ieBit_writeIe_same _ src false, fun _ hn => ieBit_writeIe_other _ false hn⟩,
    ⟨_, rfl, rfl, rfl, ieBit_writeIe_same _ src _, fun _ hn => ieBit_writeIe_other _ _ hn⟩⟩

/-! ## What the main context alone writes -/

/-- FB, RESULT, the font, the marquee, TEXT and IE are the same in both states. -/
def sameMainState (s t : State) : Prop :=
  t.fb = s.fb ∧ t.result = s.result ∧ t.fontBase = s.fontBase ∧ t.fontValid = s.fontValid ∧ t.mqText = s.mqText ∧
  t.mqLen = s.mqLen ∧ t.mqWidth = s.mqWidth ∧ t.mqHeight = s.mqHeight ∧ t.mqOX = s.mqOX ∧ t.mqOY = s.mqOY ∧
  t.text = s.text ∧ t.ie = s.ie

/-- TICK, PHASE, ROW_EN, ROW_ADDR and OUT are the same in both states. -/
def sameTimerState (s t : State) : Prop :=
  t.tick = s.tick ∧ t.phase = s.phase ∧ t.rowEn = s.rowEn ∧ t.rowAddr = s.rowAddr ∧ t.out = s.out

theorem enter_sameMainState (s : State) (n : Source) : sameMainState s (enter n s) := by
  simp [sameMainState]

theorem enter_sameTimerState (s : State) {n : Source} (h : n ≠ .timer) : sameTimerState s (enter n s) :=
  enter_edge_timerState s h

theorem perform_sameTimerState {op : MicroOp} {s t : State} (h : perform op s = .next t) : sameTimerState s t := by
  rw [perform_frame h]
  exact ⟨rfl, rfl, rfl, rfl, rfl⟩

/-- A step of the environment, of the host or of issue leaves what the main context and the timer handler write alone. -/
theorem sameState_of_frame {s t : State} (h : t = { s with
    env := t.env, pend := t.pend, busBusy := t.busBusy, hostVars := t.hostVars, a0 := t.a0, a1 := t.a1, a2 := t.a2,
    a3 := t.a3, ctx := t.ctx, cur := t.cur, faultCode := t.faultCode, faultCmd := t.faultCmd }) :
    sameMainState s t ∧ sameTimerState s t ∧ t.flag0 = s.flag0 ∧ t.flag1 = s.flag1 := by
  rw [h]
  exact ⟨⟨rfl, rfl, rfl, rfl, rfl, rfl, rfl, rfl, rfl, rfl, rfl, rfl⟩, ⟨rfl, rfl, rfl, rfl, rfl⟩, rfl, rfl⟩

/-- What a step does to everything but the host's registers, the environment, CUR and the fault record: nothing, unless the
block enters a handler or performs a micro-operation (R26, R291). -/
theorem step_writes {s t : State} (h : step s = .next t) :
    (sameMainState s t ∧ sameTimerState s t ∧ t.flag0 = s.flag0 ∧ t.flag1 = s.flag1) ∨
    (s.ctx = .main ∧ ∃ n, nextSource s = some n ∧ ∃ env, t = enter n { s with env := env }) ∨
    (s.ctx = .main ∧ nextSource s = none ∧ ∃ op rest, s.cur = op :: rest ∧
      ∃ env, perform op { s with env := env, cur := rest } = .next t) := by
  obtain frame | ⟨-, w, rest, -, hw⟩ | ⟨env, hb⟩ := step_kinds h
  · exact .inl (sameState_of_frame (by rw [frame]))
  · exact .inl (sameState_of_frame (by rw [presentWord_frame hw]))
  · obtain ⟨-, rfl⟩ | ⟨hc, n, hn, rfl⟩ | ⟨hc, hn, op, rest, hcur, hp⟩ | ⟨-, -, -, rfl⟩ := blockStep_cases hb
    · exact .inl (sameState_of_frame rfl)
    · exact .inr (.inl ⟨hc, n, hn, env, rfl⟩)
    · exact .inr (.inr ⟨hc, hn, op, rest, hcur, env, hp⟩)
    · exact .inl (sameState_of_frame rfl)

/-- Settles O53. -/
theorem oneWriterContext : Obligations.OneWriterContext := by
  intro s t h
  obtain ⟨hmain, htimer, -⟩ | ⟨hc, n, hn, env, rfl⟩ | ⟨hc, hn, op, rest, hcur, env, hp⟩ := step_writes h
  · exact ⟨fun _ => htimer, fun _ => hmain⟩
  · refine ⟨fun hno => ?_, fun _ => enter_sameMainState _ n⟩
    refine enter_sameTimerState _ ?_
    rintro rfl
    exact hno ⟨hc, hn⟩
  · exact ⟨fun _ => perform_sameTimerState (s := { s with env := env, cur := rest }) hp,
      fun hno => absurd ⟨hc, hn, by rw [hcur]; exact List.cons_ne_nil _ _⟩ hno⟩

/-! ## The event flags (R33, R260, R262) -/

/-- Only FLAG_CLEAR writes a flag. -/
theorem perform_flags {op : MicroOp} {s t : State} (h : perform op s = .next t) :
    (t.flag0 = s.flag0 ∨ op = .clearFlag 0 ∧ t.flag0 = 0x00#8) ∧
    (t.flag1 = s.flag1 ∨ op = .clearFlag 1 ∧ t.flag1 = 0x00#8) := by
  cases op with
  | plot x y mode v =>
    obtain rfl := Host.Outcome.next.inj h
    exact ⟨.inl (plot_flag0 s x y mode v), .inl (plot_flag1 s x y mode v)⟩
  | fbWrite i v =>
    obtain ⟨-, rfl⟩ := checkedFbWrite_eq_next.mp h
    exact ⟨.inl rfl, .inl rfl⟩
  | shiftLeftByte i =>
    obtain ⟨-, rfl⟩ := checkedFbWrite_eq_next.mp h
    exact ⟨.inl rfl, .inl rfl⟩
  | shiftRightByte i =>
    obtain ⟨-, rfl⟩ := checkedFbWrite_eq_next.mp h
    exact ⟨.inl rfl, .inl rfl⟩
  | clearFlag k =>
    obtain rfl := Host.Outcome.next.inj h
    match k with
    | 0 => exact ⟨.inr ⟨rfl, rfl⟩, .inl rfl⟩
    | 1 => exact ⟨.inl rfl, .inr ⟨rfl, rfl⟩⟩
  | _ =>
    obtain rfl := Host.Outcome.next.inj h
    exact ⟨.inl rfl, .inl rfl⟩

/-- With nothing arriving, a step from the main context with a micro-operation at the head of CUR performs it. -/
theorem step_performs {s t : State} {op : MicroOp} (h : step s = .next t) (he : s.env = []) (hc : s.ctx = .main)
    (hn : nextSource s = none) (hop : s.cur.head? = some op) : ∃ rest, perform op { s with cur := rest } = .next t := by
  obtain ⟨hv, -⟩ := step_cases h
  obtain ⟨rest, hcur⟩ := List.head?_eq_some_iff.mp hop
  exact ⟨rest, by rw [← blockStep_perform hc hn hcur, ← step_nil hv he, h]⟩

/-- With nothing arriving, a step from the main context with an eligible source enters its handler. -/
theorem step_enters {s t : State} {n : Source} (h : step s = .next t) (he : s.env = []) (hc : s.ctx = .main)
    (hn : nextSource s = some n) : t = enter n s := by
  obtain ⟨hv, -⟩ := step_cases h
  rw [step_nil hv he, blockStep_enter hc hn] at h
  exact (Host.Outcome.next.inj h).symm

/-- Settles O54. -/
theorem flagWriters : Obligations.FlagWriters := by
  intro s t h
  have sets : s.env = [] → s.ctx = .main →
      (nextSource s = some .edge0 → t.flag0 = 0x01#8) ∧ (nextSource s = some .edge1 → t.flag1 = 0x01#8) ∧
      (nextSource s = none → s.cur.head? = some (.clearFlag 0) → t.flag0 = 0x00#8) ∧
      (nextSource s = none → s.cur.head? = some (.clearFlag 1) → t.flag1 = 0x00#8) := by
    intro he hc
    refine ⟨fun hn => ?_, fun hn => ?_, fun hn hop => ?_, fun hn hop => ?_⟩
    · rw [step_enters h he hc hn, enter_edge0]
    · rw [step_enters h he hc hn, enter_edge1]
    · obtain ⟨rest, hp⟩ := step_performs h he hc hn hop
      exact Host.Outcome.next.inj hp ▸ rfl
    · obtain ⟨rest, hp⟩ := step_performs h he hc hn hop
      exact Host.Outcome.next.inj hp ▸ rfl
  rw [← and_assoc]
  refine ⟨?_, sets⟩
  obtain ⟨-, -, h0, h1⟩ | ⟨hc, n, hn, env, rfl⟩ | ⟨hc, hn, op, rest, hcur, env, hp⟩ := step_writes h
  · exact ⟨.inl h0, .inl h1⟩
  · rw [enter_flag0, enter_flag1]
    constructor
    · by_cases hedge : n = .edge0
      · subst hedge
        exact .inr (.inl ⟨hc, hn, rfl⟩)
      · exact .inl (if_neg hedge)
    · by_cases hedge : n = .edge1
      · subst hedge
        exact .inr (.inl ⟨hc, hn, rfl⟩)
      · exact .inl (if_neg hedge)
  · obtain ⟨h0, h1⟩ := perform_flags hp
    refine ⟨h0.imp_right fun ⟨hop, ht⟩ => .inr ⟨hc, hn, ?_, ht⟩, h1.imp_right fun ⟨hop, ht⟩ => .inr ⟨hc, hn, ?_, ht⟩⟩
    · rw [hcur, hop, List.head?_cons]
    · rw [hcur, hop, List.head?_cons]

end Sys2Proof.Machine
end

section
/-! What runs beside a command cannot disturb it (R22, R25, R26, R281, R294, R337). -/

namespace Sys2Proof.Machine

/-! ## Where work, operands and the fault record come from -/

/-- Settles O8. -/
theorem wordsAcceptedOnlyWhenIdle : Obligations.WordsAcceptedOnlyWhenIdle := by
  intro s t h hne
  obtain frame | ⟨hi, w, rest, he, hw⟩ | ⟨env, hb⟩ := step_kinds h
  · exact absurd (by rw [frame]) hne
  · obtain ⟨hc, hn, hcur⟩ := idle_iff.mp hi
    refine ⟨hc, hn, .inr ⟨hcur, ?_, w, rest, he, by rw [presentWord_frame hw]⟩⟩
    obtain ⟨-, hw'⟩ | ⟨hf, -⟩ | ⟨-, hf, -⟩ := presentWord_cases w { s with env := rest }
    · exact absurd (by rw [← Host.Outcome.next.inj (hw'.symm.trans hw)]) hne
    · exact hf
    · exact hf
  · obtain ⟨-, rfl⟩ | ⟨-, n, -, rfl⟩ | ⟨hc, hn, op, rest, hcur, hp⟩ | ⟨-, -, -, rfl⟩ := blockStep_cases hb
    · exact absurd rfl hne
    · exact absurd (enter_cur _ n) hne
    · refine ⟨hc, hn, .inl ⟨op, ?_⟩⟩
      rw [perform_frame hp]
      exact hcur
    · exact absurd rfl hne

/-- The block's own step leaves the argument registers alone (R22). -/
theorem blockStep_args {s t : State} (h : blockStep s = .next t) :
    (t.a0, t.a1, t.a2, t.a3) = (s.a0, s.a1, s.a2, s.a3) := by
  obtain ⟨-, rfl⟩ | ⟨-, n, -, rfl⟩ | ⟨-, -, op, rest, -, hp⟩ | ⟨-, -, -, rfl⟩ := blockStep_cases h
  · rfl
  · simp
  · rw [perform_frame hp]
  · rfl

/-- Settles O9. -/
theorem argumentsWrittenOnlyByHost : Obligations.ArgumentsWrittenOnlyByHost := by
  intro s t h hne
  obtain ⟨-, ⟨n, rest, -, rfl⟩ | ⟨b, rest, -, rfl⟩ | ⟨a, rest, he, rfl⟩ | ⟨w, rest, -, -, hw⟩ | ⟨x, v, rest, -, rfl⟩ |
    ⟨rest, -, hb⟩ | hb⟩ := step_cases h
  · exact absurd rfl hne
  · exact absurd rfl hne
  · exact ⟨a, rest, rfl, he.imp_left fun ⟨he, hi⟩ => ⟨he, idle_iff.mp hi⟩⟩
  · exact absurd (by rw [presentWord_frame hw]) hne
  · exact absurd rfl hne
  · exact absurd (blockStep_args hb) hne
  · exact absurd (blockStep_args hb) hne

/-- Once a fault is recorded no step changes the record (R281). -/
theorem step_faultRecord {s t : State} (h : step s = .next t) (hf : s.faultCode ≠ faultNone) :
    t.faultCode = s.faultCode ∧ t.faultCmd = s.faultCmd := by
  obtain frame | ⟨-, w, rest, -, hw⟩ | ⟨env, hb⟩ := step_kinds h
  · rw [frame]
    exact ⟨rfl, rfl⟩
  · obtain ⟨-, hw'⟩ | ⟨hnone, -⟩ | ⟨-, hnone, -⟩ := presentWord_cases w { s with env := rest }
    · obtain rfl := Host.Outcome.next.inj (hw'.symm.trans hw)
      exact ⟨rfl, rfl⟩
    · exact absurd hnone hf
    · exact absurd hnone hf
  · obtain ⟨-, rfl⟩ | ⟨-, n, -, rfl⟩ | ⟨-, -, op, rest, -, hp⟩ | ⟨-, -, -, rfl⟩ := blockStep_cases hb
    · exact ⟨rfl, rfl⟩
    · exact ⟨enter_faultCode _ n, enter_faultCmd _ n⟩
    · rw [perform_frame hp]
      exact ⟨rfl, rfl⟩
    · exact ⟨rfl, rfl⟩

/-- After a fault the main context, with CUR empty, gets no work (R281). -/
theorem step_cur_of_fault {s t : State} (h : step s = .next t) (hf : s.faultCode ≠ faultNone) (hc : s.cur = []) :
    t.cur = [] := by
  by_contra hne
  obtain ⟨-, -, ⟨op, hcur⟩ | ⟨-, hnone, -⟩⟩ := wordsAcceptedOnlyWhenIdle s t h (by rwa [hc])
  · rw [hc] at hcur
    cases hcur
  · exact hf hnone

/-- Settles O56. -/
theorem faultStopsMainContext : Obligations.FaultStopsMainContext := by
  constructor
  · intro s t h hf
    obtain ⟨hcode, hcmd⟩ := step_faultRecord h hf
    obtain ⟨-, mainState⟩ := oneWriterContext s t h
    exact ⟨hcode, hcmd, fun hc => ⟨step_cur_of_fault h hf hc, mainState fun ⟨_, _, hne⟩ => hne hc⟩⟩
  · intro s r x rest hv he
    refine ⟨_, step_readFault hv he, rfl, ?_, ?_, fun y hy => hostVar_setHostVar_other _ _ hy.symm⟩
    · rintro rfl
      exact hostVar_setHostVar_same _ x _
    · rintro rfl
      exact hostVar_setHostVar_same _ x _

/-! ## What a micro-operation neither reads nor writes -/

/-- `s` with the fields that no micro-operation reads or writes as they are in `c`. -/
def withOutside (c s : State) : State :=
  { s with
    a0 := c.a0, a1 := c.a1, a2 := c.a2, a3 := c.a3, phase := c.phase, pend := c.pend, ctx := c.ctx, cur := c.cur,
    rowEn := c.rowEn, rowAddr := c.rowAddr, out := c.out, faultCode := c.faultCode, faultCmd := c.faultCmd,
    busBusy := c.busBusy, env := c.env, hostVars := c.hostVars }

/-- A micro-operation does the same whatever those fields hold. -/
theorem perform_withOutside {op : MicroOp} {s t : State} (c : State) (h : perform op s = .next t) :
    perform op (withOutside c s) = .next (withOutside c t) := by
  cases op with
  | plot x y mode v =>
    obtain rfl := Host.Outcome.next.inj h
    simp only [perform, plot]
    rcases ha : pixelAddr s.cfg x y with _ | ⟨i, m⟩
    · simp [withOutside, ha]
    · simp only [withOutside, ha]
      rfl
  | fbWrite i v =>
    obtain ⟨hi, rfl⟩ := checkedFbWrite_eq_next.mp h
    exact checkedFbWrite_eq_next.mpr ⟨hi, rfl⟩
  | shiftLeftByte i =>
    obtain ⟨hi, rfl⟩ := checkedFbWrite_eq_next.mp h
    exact checkedFbWrite_eq_next.mpr ⟨hi, rfl⟩
  | shiftRightByte i =>
    obtain ⟨hi, rfl⟩ := checkedFbWrite_eq_next.mp h
    exact checkedFbWrite_eq_next.mpr ⟨hi, rfl⟩
  | clearFlag k =>
    obtain rfl := Host.Outcome.next.inj h
    simp only [perform, writeFlag]
    split <;> rfl
  | _ =>
    obtain rfl := Host.Outcome.next.inj h
    rfl

/-- A host's write commutes with every micro-operation (R337). -/
theorem perform_setArg {op : MicroOp} {s t : State} (r : ArgReg) (v : Half) (h : perform op s = .next t) :
    perform op (setArg r v s) = .next (setArg r v t) := by
  have outside := perform_withOutside (setArg r v s) h
  rw [perform_frame h] at outside ⊢
  cases r <;> exact outside

/-- CUR itself is not read by a micro-operation (R25). -/
theorem perform_setCur {op : MicroOp} {s t : State} (ops : List MicroOp) (h : perform op s = .next t) :
    perform op { s with cur := ops } = .next { t with cur := ops } := by
  have outside := perform_withOutside { s with cur := ops } h
  rw [perform_frame h] at outside ⊢
  exact outside

theorem performAll_keepsResult {ops : List MicroOp} : ∀ {s t : State}, performAll ops s = .next t →
    (∀ op ∈ ops, op.keepsResult = true) → t.result = s.result := by
  induction ops with
  | nil =>
    intro s t h _
    rw [← Host.Outcome.next.inj h]
  | cons op ops ih =>
    intro s t h hkeeps
    simp only [performAll] at h
    split at h
    · rename_i u hu
      rw [ih h fun op' hop' => hkeeps op' (List.mem_cons_of_mem _ hop')]
      exact perform_keepsResult hu (hkeeps op List.mem_cons_self)
    · cases h
    · cases h

/-- RESULT is the last thing a command writes (R337): a part of it that leaves something to do has not written it. -/
theorem result_before_completion {s m t : State} {i : Instr} {done left : List MicroOp} (he : exec i s = .next m)
    (hcur : m.cur = done ++ left) (hleft : left ≠ []) (hdone : performAll done { m with cur := left } = .next t) :
    t.result = s.result := by
  obtain ⟨ops, hx, -, keeps⟩ | ⟨k, hx⟩ := exec_issuesOrFaults i s
  · obtain rfl := Host.Outcome.next.inj (hx.symm.trans he)
    have split : ops = done ++ left := hcur
    have kept := performAll_keepsResult hdone fun op hop => keeps op (by
      rw [split, List.dropLast_append_of_ne_nil hleft]
      exact List.mem_append_left _ hop)
    exact kept
  · obtain rfl := Host.Outcome.next.inj (hx.symm.trans he)
    rw [raiseFault_cur] at hcur
    exact absurd (List.append_eq_nil_iff.mp hcur.symm).2 hleft

/-- Settles O6. -/
theorem earlyAccess : Obligations.EarlyAccess := by
  refine ⟨fun s a rest hv he => ⟨_, step_earlyAccess hv he, hostAccess_frame a _, ?_, ?_, ?_⟩,
    fun s t r v op h => perform_setArg r v h, fun s m t i done left he hcur hleft hdone =>
      result_before_completion he hcur hleft hdone⟩
  · rintro r v rfl
    exact ⟨argBits_setArg_same _ r v, fun q hq => argBits_setArg_other _ v hq.symm, setArg_hostVars _ r v⟩
  · rintro r x rfl
    exact ⟨argBits_setArg_same _ r _, fun q hq => argBits_setArg_other _ _ hq.symm, setArg_hostVars _ r _⟩
  · rintro x rfl
    exact ⟨hostVar_setHostVar_same _ x _, fun y hy => hostVar_setHostVar_other _ _ hy.symm, fun q => by cases q <;> rfl⟩

/-! ## A command runs to its end (R25) -/

theorem run_succ {s t : State} (h : step s = .next t) (k : Nat) :
    Host.Core.run Sys2Proof.core (k + 1) s = Host.Core.run Sys2Proof.core k t := by
  have hstep : Sys2Proof.core.step s = .next t := h
  simp only [Host.Core.run, hstep]

theorem nextSource_of_pend_zero {s : State} (h : s.pend = 0#3) : nextSource s = none :=
  nextSource_eq_none.mpr fun n => by simp [eligible, pendBit, h]

/-- With nothing arriving and no source pending, as many steps as CUR has micro-operations perform them all. -/
theorem run_cur : ∀ {ops : List MicroOp} {s : State}, s.cur = ops → s.cfg.valid = true → s.env = [] → s.pend = 0#3 →
    s.ctx = .main → ops.all (MicroOp.inRange s.cfg) = true →
    ∃ t, performAll ops { s with cur := [] } = .next t ∧ t.cur = [] ∧
      Host.Core.run Sys2Proof.core ops.length s = .next t
  | [], s, hcur, _, _, _, _, _ => by
    have same : { s with cur := [] } = s := by rw [← hcur]
    exact ⟨s, congrArg Host.Outcome.next same, hcur, rfl⟩
  | op :: ops, s, hcur, hv, he, hp, hc, hops => by
    rw [List.all_cons, Bool.and_eq_true] at hops
    obtain ⟨hop, hops⟩ := hops
    obtain ⟨u, hu⟩ := perform_inRange (s := { s with cur := ops }) hop
    have hstep : step s = .next u := by
      rw [step_nil hv he, blockStep_perform hc (nextSource_of_pend_zero hp) hcur, hu]
    have frame := perform_frame hu
    have hcfg : u.cfg = s.cfg := by rw [frame]
    obtain ⟨t, ht, hcur', hrun⟩ := run_cur (ops := ops) (s := u) (by rw [frame]) (by rw [hcfg, hv]) (by rw [frame, ← he])
      (by rw [frame, ← hp]) (by rw [frame, ← hc]) (by rw [hcfg, hops])
    exact ⟨t, (performAll_cons (perform_setCur [] hu)).trans ht, hcur', (run_succ hstep _).trans hrun⟩

/-- Settles O10. -/
theorem stepsFinishTheCommand : Obligations.StepsFinishTheCommand := fun _ hv he hp hc hcur =>
  run_cur rfl hv he hp hc hcur

/-! ## Handlers beside the main context (R26, R294) -/

theorem putBit_false_comm (v : BitVec 3) (m n : Nat) :
    putBit (putBit v m false) n false = putBit (putBit v n false) m false := by
  simp only [putBit_eq_twoPow, Bool.false_eq_true, if_false, BitVec.and_assoc]
  rw [BitVec.and_comm (~~~BitVec.twoPow 3 m)]

/-- What the timer's interrupt does, with PEND[TIMER] cleared as the edges clear theirs. -/
theorem enter_timer_eq (s : State) : enter .timer s =
    { timerHandler s with pend := putBit s.pend 0 false, ctx := .main } := by
  rcases Bool.eq_false_or_eq_true s.busBusy with busy | free
  · rw [enter_timer_of_busy busy, timerHandler_of_busy busy]
    rfl
  · rw [enter_timer_of_free free, timerHandler_of_free free]
    rfl

/-- The timer handler neither reads nor writes a flag, CTX or PEND. -/
theorem timerHandler_edgeFields (s : State) (c : Ctx) (p : BitVec 3) (f g : Byte) :
    timerHandler { s with ctx := c, pend := p, flag0 := f, flag1 := g } =
      { timerHandler s with ctx := c, pend := p, flag0 := f, flag1 := g } := by
  unfold timerHandler
  split <;> rfl

theorem enter_edge_timer_comm (s : State) {n : Source} (hn : n ≠ .timer) :
    enter n (enter .timer s) = enter .timer (enter n s) := by
  cases n with
  | timer => exact absurd rfl hn
  | edge0 =>
    have handler := timerHandler_edgeFields s .main (putBit s.pend 1 false) 0x01#8 s.flag1
    rw [enter_edge0, enter_edge0, enter_timer_eq, enter_timer_eq, handler, putBit_false_comm, timerHandler_flag1]
  | edge1 =>
    have handler := timerHandler_edgeFields s .main (putBit s.pend 2 false) s.flag0 0x01#8
    rw [enter_edge1, enter_edge1, enter_timer_eq, enter_timer_eq, handler, putBit_false_comm, timerHandler_flag0]

/-- Settles O51. -/
theorem handlerOrderIrrelevant : Obligations.HandlerOrderIrrelevant := by
  intro s m n
  cases m with
  | timer =>
    cases n with
    | timer => rfl
    | edge0 => exact (enter_edge_timer_comm s (by decide)).symm
    | edge1 => exact (enter_edge_timer_comm s (by decide)).symm
  | edge0 =>
    cases n with
    | timer => exact enter_edge_timer_comm s (by decide)
    | edge0 => rfl
    | edge1 => simp only [enter_edge0, enter_edge1, putBit_false_comm s.pend 2 1]
  | edge1 =>
    cases n with
    | timer => exact enter_edge_timer_comm s (by decide)
    | edge0 => simp only [enter_edge0, enter_edge1, putBit_false_comm s.pend 2 1]
    | edge1 => rfl

end Sys2Proof.Machine
end

section
/-! A handler between two micro-operations of a command is not seen by the command (R26, R292, R295). -/

namespace Sys2Proof.Machine

/-- The micro-operation reads TICK or touches a flag, which handlers write. -/
def MicroOp.sharesHandlerState : MicroOp → Bool
  | .readTick => true
  | .readTickByte _ => true
  | .readFlag _ => true
  | .clearFlag _ => true
  | _ => false

/-- `s` with what the main context writes, but for the flags, as it is in `c`. -/
def withMain (c s : State) : State :=
  { s with
    fb := c.fb, result := c.result, fontBase := c.fontBase, fontValid := c.fontValid, mqText := c.mqText,
    mqLen := c.mqLen, mqWidth := c.mqWidth, mqHeight := c.mqHeight, mqOX := c.mqOX, mqOY := c.mqOY, text := c.text,
    ie := c.ie }

/-- `s` with TICK and the flags as they are in `c`. -/
def withShared (c s : State) : State := { s with tick := c.tick, flag0 := c.flag0, flag1 := c.flag1 }

theorem perform_eq_withMain {op : MicroOp} {s t : State} (h : perform op s = .next t)
    (hop : op.sharesHandlerState = false) : t = withMain t s := by
  obtain ⟨h0 | ⟨hclear, -⟩, h1 | ⟨hclear, -⟩⟩ := perform_flags h
  · calc t = _ := perform_frame h
      _ = withMain t s := by rw [h0, h1, withMain]
  all_goals
    rw [hclear] at hop
    cases hop

theorem perform_withShared {op : MicroOp} {s t : State} (c : State) (h : perform op s = .next t)
    (hop : op.sharesHandlerState = false) : perform op (withShared c s) = .next (withShared c t) := by
  cases op with
  | plot x y mode v =>
    obtain rfl := Host.Outcome.next.inj h
    simp only [perform, plot]
    rcases ha : pixelAddr s.cfg x y with _ | ⟨i, m⟩
    · simp [withShared, ha]
    · simp only [withShared, ha]
      rfl
  | fbWrite i v =>
    obtain ⟨hi, rfl⟩ := checkedFbWrite_eq_next.mp h
    exact checkedFbWrite_eq_next.mpr ⟨hi, rfl⟩
  | shiftLeftByte i =>
    obtain ⟨hi, rfl⟩ := checkedFbWrite_eq_next.mp h
    exact checkedFbWrite_eq_next.mpr ⟨hi, rfl⟩
  | shiftRightByte i =>
    obtain ⟨hi, rfl⟩ := checkedFbWrite_eq_next.mp h
    exact checkedFbWrite_eq_next.mpr ⟨hi, rfl⟩
  | readTick | readTickByte | readFlag | clearFlag => cases hop
  | _ =>
    obtain rfl := Host.Outcome.next.inj h
    rfl

/-- A handler writes only fields that a micro-operation neither reads nor writes, TICK and the flags. -/
theorem enter_eq_withOutside (s : State) (n : Source) :
    enter n s = withOutside (enter n s) (withShared (enter n s) s) := by
  calc enter n s = _ := enter_frame s n
    _ = withOutside (enter n s) (withShared (enter n s) s) := by
      simp only [withOutside, withShared, enter_a0, enter_a1, enter_a2, enter_a3, enter_ctx, enter_cur, enter_faultCode,
        enter_faultCmd, enter_busBusy, enter_env, enter_hostVars]

/-- An edge's handler does the same whatever the main context has written. -/
theorem enter_edge_withMain (c s : State) {n : Source} (hn : n ≠ .timer) :
    withOutside (enter n s) (withShared (enter n s) (withMain c s)) = enter n (withMain c s) := by
  cases n with
  | timer => exact absurd rfl hn
  | edge0 => rfl
  | edge1 => rfl

/-- The timer's handler does too, but for the bytes of FB that its scan sends. -/
theorem enter_timer_withMain (c s : State) :
    withOutside (enter .timer s) (withShared (enter .timer s) (withMain c s)) =
      { enter .timer (withMain c s) with out := (enter .timer s).out } := by
  rcases Bool.eq_false_or_eq_true s.busBusy with busy | free
  · rw [enter_timer_of_busy busy, enter_timer_of_busy (s := withMain c s) busy]
    rfl
  · rw [enter_timer_of_free free, enter_timer_of_free (s := withMain c s) free]
    rfl

/-- Settles O52. -/
theorem handlersAreTransparent : Obligations.HandlersAreTransparent := by
  intro s t n op h hTick hLane hRead hClear
  have hop : op.sharesHandlerState = false := by
    cases op with
    | readTick => exact absurd rfl hTick
    | readTickByte lane => exact absurd rfl (hLane lane)
    | readFlag k => exact absurd rfl (hRead k)
    | clearFlag k => exact absurd rfl (hClear k)
    | _ => rfl
  have after := perform_withOutside (enter n s) (perform_withShared (enter n s) h hop)
  rw [← enter_eq_withOutside, perform_eq_withMain h hop] at after
  rw [perform_eq_withMain h hop]
  refine ⟨_, after, ?_, fun hn => enter_edge_withMain t s hn⟩
  by_cases hn : n = .timer
  · subst hn
    rw [enter_timer_withMain]
  · rw [enter_edge_withMain t s hn]

end Sys2Proof.Machine
end

section
/-! The host's programs (R102, R103): critical sections, TICK_ATOMIC and FLAG_TAC, run with nothing else arriving, and the
commands of the timebase they are made of. -/

namespace Sys2Proof.Machine

/-! ## Bits written twice -/

theorem putBit_putBit (v : BitVec 3) {n : Nat} (b b' : Bool) (hn : n < 3) :
    putBit (putBit v n b) n b' = putBit v n b' := by
  apply BitVec.eq_of_getLsbD_eq
  intro i hi
  by_cases hin : i = n
  · rw [hin, putBit_getLsbD_same _ b' hn, putBit_getLsbD_same _ b' hn]
  · rw [putBit_getLsbD_other _ b' hin, putBit_getLsbD_other _ b hin, putBit_getLsbD_other _ b' hin]

/-- What RESULT holds of an enable is bit 0. -/
theorem enableWord_getLsbD (b : Bool) : (if b then 1#32 else 0#32).getLsbD 0 = b := by
  cases b <;> rfl

/-! ## The states a host's program goes through -/

/-- `s` between two events of a host's program: the program's own state, RESULT and IE are as given. -/
def hostState (s : State) (env : List EnvEvent) (a0 : Half) (result : Word) (vars : List (Nat × Word))
    (ie : BitVec 3) : State :=
  { s with env := env, a0 := a0, result := result, hostVars := vars, ie := ie }

/-- The next event of the program, if there is one, waits until the block is idle. -/
def waitsForIdle : List EnvEvent → Bool
  | [] => true
  | .access _ :: _ => true
  | .issue _ :: _ => true
  | _ => false

/-- While a command is in progress, the block takes its own steps. -/
theorem step_of_waiting {s : State} (hv : s.cfg.valid = true) (hw : waitsForIdle s.env = true) (hcur : s.cur ≠ []) :
    step s = blockStep s := by
  have busy : idle s = false := Bool.eq_false_iff.mpr fun hi => hcur (idle_iff.mp hi).2.2
  rcases he : s.env with _ | ⟨e, rest⟩
  · exact step_nil hv he
  · cases e with
    | access a => exact step_access_waits hv he busy
    | issue w => exact step_issue_waits hv he busy
    | _ =>
      rw [he] at hw
      cases hw

/-- A command of one micro-operation takes two steps: its word is accepted, and the micro-operation is performed. -/
theorem run_command {s t : State} {i : Instr} {op : MicroOp} {rest : List EnvEvent} (hv : s.cfg.valid = true)
    (hi : idle s = true) (hf : s.faultCode = faultNone) (he : s.env = command i :: rest)
    (hwf : i.wf s.cfg.tickWidth = true) (hx : exec i { s with env := rest } = .next { s with env := rest, cur := [op] })
    (hw : waitsForIdle rest = true) (hp : perform op { s with env := rest, cur := [] } = .next t) (k : Nat) :
    Host.Core.run Sys2Proof.core (k + 2) s = Host.Core.run Sys2Proof.core k t := by
  obtain ⟨hc, hn, -⟩ := idle_iff.mp hi
  have accepted : step s = .next { s with env := rest, cur := [op] } := by
    rw [step_issue hv he hi]
    exact (presentWord_of_some (s := { s with env := rest }) hf (decodeEncode _ i hwf)).trans hx
  have performed : step { s with env := rest, cur := [op] } = .next t := by
    rw [step_of_waiting (s := { s with env := rest, cur := [op] }) hv hw (List.cons_ne_nil op [])]
    exact (blockStep_perform (s := { s with env := rest, cur := [op] }) hc hn rfl).trans hp
  rw [run_succ accepted, run_succ performed]

/-- Masking a source makes none eligible. -/
theorem idle_putBit_false {s : State} {ie : BitVec 3} (hi : idle { s with ie := ie } = true) (n : Source) :
    idle { s with ie := putBit ie (sourceBit n) false } = true := by
  obtain ⟨hc, hn, hcur⟩ := idle_iff.mp hi
  refine idle_iff.mpr ⟨hc, nextSource_eq_none.mpr fun m => ?_, hcur⟩
  have masked : (pendBit s m && ie.getLsbD (sourceBit m)) = false := nextSource_eq_none.mp hn m
  change (pendBit s m && (putBit ie (sourceBit n) false).getLsbD (sourceBit m)) = false
  by_cases hmn : sourceBit m = sourceBit n
  · rw [hmn, putBit_getLsbD_same ie false (sourceBit_lt n), Bool.and_false]
  · rw [putBit_getLsbD_other ie false hmn, masked]

section
variable {s : State} {ie : BitVec 3} (hv : s.cfg.valid = true) (hf : s.faultCode = faultNone)
  (hi : idle { s with ie := ie } = true)
include hv hi

theorem run_get (x : Nat) (rest : List EnvEvent) (a0 : Half) (r : Word) (vars : List (Nat × Word)) (k : Nat) :
    Host.Core.run Sys2Proof.core (k + 1) (hostState s (get x :: rest) a0 r vars ie) =
      Host.Core.run Sys2Proof.core k (hostState s rest a0 r (writeVar vars x r) ie) :=
  run_succ (step_access (s := hostState s (get x :: rest) a0 r vars ie) hv rfl hi) k

theorem run_setArgVar (x : Nat) (rest : List EnvEvent) (a0 : Half) (r : Word) (vars : List (Nat × Word)) (k : Nat) :
    Host.Core.run Sys2Proof.core (k + 1) (hostState s (.access (.setArgVar .a0 x) :: rest) a0 r vars ie) =
      Host.Core.run Sys2Proof.core k (hostState s rest ((readVar vars x).setWidth 16) r vars ie) :=
  run_succ (step_access (s := hostState s (.access (.setArgVar .a0 x) :: rest) a0 r vars ie) hv rfl hi) k

include hf

theorem run_saveDisable (n : Source) {rest : List EnvEvent} (hw : waitsForIdle rest = true) (a0 : Half) (r : Word)
    (vars : List (Nat × Word)) (k : Nat) :
    Host.Core.run Sys2Proof.core (k + 2) (hostState s (command (.ieSaveDisable n) :: rest) a0 r vars ie) =
      Host.Core.run Sys2Proof.core k (hostState s rest a0 (if ie.getLsbD (sourceBit n) then 1#32 else 0#32) vars
        (putBit ie (sourceBit n) false)) := by
  obtain ⟨-, -, hcur⟩ := idle_iff.mp hi
  refine run_command (s := hostState s (command (.ieSaveDisable n) :: rest) a0 r vars ie) hv hi hf rfl rfl rfl hw ?_ k
  rw [hostState, ← hcur]
  rfl

theorem run_restore (n : Source) {rest : List EnvEvent} (hw : waitsForIdle rest = true) (a0 : Half) (r : Word)
    (vars : List (Nat × Word)) (k : Nat) :
    Host.Core.run Sys2Proof.core (k + 2) (hostState s (command (.ieRestore n) :: rest) a0 r vars ie) =
      Host.Core.run Sys2Proof.core k (hostState s rest a0 r vars (putBit ie (sourceBit n) (a0.getLsbD 0))) := by
  obtain ⟨-, -, hcur⟩ := idle_iff.mp hi
  refine run_command (s := hostState s (command (.ieRestore n) :: rest) a0 r vars ie) hv hi hf rfl rfl rfl hw ?_ k
  rw [hostState, ← hcur]
  rfl

/-- CRIT_BEGIN (R103): the source is masked and its prior enable is in the host's variable. -/
theorem run_critBegin (n : Source) (rs : Nat) (rest : List EnvEvent) (a0 : Half) (r : Word)
    (vars : List (Nat × Word)) (k : Nat) :
    Host.Core.run Sys2Proof.core (k + 3) (hostState s (critBegin n rs ++ rest) a0 r vars ie) =
      Host.Core.run Sys2Proof.core k (hostState s rest a0 (if ie.getLsbD (sourceBit n) then 1#32 else 0#32)
        (writeVar vars rs (if ie.getLsbD (sourceBit n) then 1#32 else 0#32)) (putBit ie (sourceBit n) false)) := by
  exact (run_saveDisable hv hf hi n rfl a0 r vars (k + 1)).trans (run_get hv (idle_putBit_false hi n) rs rest a0 _ vars k)

/-- CRIT_END (R103): the enable is bit 0 of the host's variable again. -/
theorem run_critEnd (n : Source) (rs : Nat) {rest : List EnvEvent} (hw : waitsForIdle rest = true) (a0 : Half) (r : Word)
    (vars : List (Nat × Word)) (k : Nat) :
    Host.Core.run Sys2Proof.core (k + 3) (hostState s (critEnd n rs ++ rest) a0 r vars ie) =
      Host.Core.run Sys2Proof.core k (hostState s rest ((readVar vars rs).setWidth 16) r vars
        (putBit ie (sourceBit n) ((readVar vars rs).getLsbD 0))) := by
  refine (run_setArgVar hv hi rs _ a0 r vars (k + 2)).trans ((run_restore hv hf hi n hw _ r vars k).trans ?_)
  rw [BitVec.getLsbD_setWidth]
  rfl

end

/-! ## Critical sections nest (R258) -/

/-- Restoring the enable that masking returned restores IE. -/
theorem putBit_restore (ie : BitVec 3) (n : Source) (b : Bool) :
    putBit (putBit ie (sourceBit n) b) (sourceBit n) (ie.getLsbD (sourceBit n)) = ie := by
  rw [putBit_putBit _ _ _ (sourceBit_lt n), putBit_of_getLsbD rfl (sourceBit_lt n)]

/-- Masking a masked source, and restoring what that returned, leaves it masked. -/
theorem putBit_masked (ie : BitVec 3) (n : Source) :
    putBit (putBit ie (sourceBit n) false) (sourceBit n) false = putBit ie (sourceBit n) false :=
  putBit_putBit ie false false (sourceBit_lt n)

/-- What IE_SAVE_DISABLE does: bit 0 of RESULT is the prior enable, and the source is masked. -/
theorem perform_saveDisableIe {s t : State} {src : Source} (h : perform (.saveDisableIe src) s = .next t) :
    t.result.getLsbD 0 = ieBit s src ∧ t.ie = putBit s.ie (sourceBit src) false ∧ ieBit t src = false := by
  obtain rfl := Host.Outcome.next.inj h
  exact ⟨enableWord_getLsbD _, rfl, ieBit_writeIe_same _ src false⟩

theorem perform_restoreIe {s t : State} {src : Source} {b : Bool} (h : perform (.restoreIe src b) s = .next t) :
    t.ie = putBit s.ie (sourceBit src) b ∧ ieBit t src = b := by
  obtain rfl := Host.Outcome.next.inj h
  exact ⟨rfl, ieBit_writeIe_same _ src b⟩

/-- The host's nested sections: 12 steps, after which IE is as it was and the host's variables hold the two enables. -/
theorem run_nestedSections {s : State} (hv : s.cfg.valid = true) (hi : idle s = true) (hf : s.faultCode = faultNone)
    (src : Source) {outer inner : Nat} (hne : outer ≠ inner) : ∃ a0 result,
    Host.Core.run Sys2Proof.core 12
        { s with env := critBegin src outer ++ critBegin src inner ++ critEnd src inner ++ critEnd src outer } =
      .next (hostState s [] a0 result
        (writeVar (writeVar s.hostVars outer (if ieBit s src then 1#32 else 0#32)) inner 0#32) s.ie) := by
  have unmasked : idle { s with ie := s.ie } = true := hi
  have masked := idle_putBit_false unmasked src
  have bitMasked : (putBit s.ie (sourceBit src) false).getLsbD (sourceBit src) = false :=
    putBit_getLsbD_same s.ie false (sourceBit_lt src)
  refine ⟨(if ieBit s src then 1#32 else 0#32).setWidth 16, 0#32, ?_⟩
  rw [List.append_assoc, List.append_assoc, ← List.append_nil (critEnd src outer)]
  refine (run_critBegin hv hf unmasked src outer _ s.a0 s.result s.hostVars 9).trans ?_
  refine (run_critBegin hv hf masked src inner _ _ _ _ 6).trans ?_
  rw [bitMasked, putBit_masked]
  refine (run_critEnd hv hf masked src inner rfl _ _ _ 3).trans ?_
  rw [readVar_writeVar_same, show (if false = true then 1#32 else 0#32).getLsbD 0 = false from rfl, putBit_masked]
  refine (run_critEnd hv hf masked src outer rfl _ _ _ 0).trans ?_
  rw [readVar_writeVar_other _ hne.symm, readVar_writeVar_same, enableWord_getLsbD, putBit_restore]
  rfl

/-- Settles O43. -/
theorem criticalSectionsNest : Obligations.CriticalSectionsNest := by
  constructor
  · intro s s1 s2 s3 s4 src h1 h2 h3 h4
    obtain ⟨saved1, ie1, masked1⟩ := perform_saveDisableIe h1
    obtain ⟨saved2, ie2, masked2⟩ := perform_saveDisableIe h2
    obtain ⟨ie3, bit3⟩ := perform_restoreIe h3
    obtain ⟨ie4, -⟩ := perform_restoreIe h4
    rw [saved2, masked1] at ie3 bit3
    refine ⟨masked1, masked2, bit3, ?_⟩
    rw [ie4, ie3, ie2, ie1, saved1, putBit_masked, putBit_masked]
    exact putBit_restore s.ie src false
  · intro s src outer inner hv hi hf hne
    obtain ⟨a0, result, hrun⟩ := run_nestedSections hv hi hf src hne
    refine ⟨_, hrun, rfl, ?_, readVar_writeVar_same inner 0#32 _⟩
    exact (readVar_writeVar_other _ hne.symm _).trans (readVar_writeVar_same outer _ _)

end Sys2Proof.Machine
end

section
/-! Flags and TICK as the host's programs read them: FLAG_TAC and TICK_ATOMIC (R103, R254, R265). -/

namespace Sys2Proof.Machine

/-! ## FLAG_READ, FLAG_CLEAR and FLAG_TAC (R259, R260, R265) -/

theorem exec_flagRead (k : Fin 2) (s : State) :
    exec (.flagRead (BitVec.ofNat 8 k.val)) s = issueOps [.readFlag k] s := by
  match k with
  | 0 => rfl
  | 1 => rfl

theorem exec_flagClear (k : Fin 2) (s : State) :
    exec (.flagClear (BitVec.ofNat 8 k.val)) s = issueOps [.clearFlag k] s := by
  match k with
  | 0 => rfl
  | 1 => rfl

theorem wf_flagRead (tw : TickWidth) (k : Fin 2) : (Instr.flagRead (BitVec.ofNat 8 k.val)).wf tw = true := by
  match k with
  | 0 => rfl
  | 1 => rfl

theorem wf_flagClear (tw : TickWidth) (k : Fin 2) : (Instr.flagClear (BitVec.ofNat 8 k.val)).wf tw = true := by
  match k with
  | 0 => rfl
  | 1 => rfl

theorem writeFlag_hostState (k : Fin 2) (v : Byte) (s : State) (env : List EnvEvent) (a0 : Half) (r : Word)
    (vars : List (Nat × Word)) (ie : BitVec 3) :
    writeFlag k v (hostState s env a0 r vars ie) = hostState (writeFlag k v s) env a0 r vars ie := by
  unfold writeFlag
  split <;> rfl

/-- Which source is eligible does not depend on the flags. -/
theorem idle_writeFlag (k : Fin 2) (v : Byte) (s : State) (ie : BitVec 3) :
    idle { writeFlag k v s with ie := ie } = idle { s with ie := ie } := by
  unfold writeFlag
  split <;> rfl

section
variable {s : State} {ie : BitVec 3} (hv : s.cfg.valid = true) (hf : s.faultCode = faultNone)
  (hi : idle { s with ie := ie } = true)
include hv hf hi

theorem run_flagRead (n : Fin 2) {rest : List EnvEvent} (hw : waitsForIdle rest = true) (a0 : Half) (r : Word)
    (vars : List (Nat × Word)) (k : Nat) :
    Host.Core.run Sys2Proof.core (k + 2)
        (hostState s (command (.flagRead (BitVec.ofNat 8 n.val)) :: rest) a0 r vars ie) =
      Host.Core.run Sys2Proof.core k (hostState s rest a0 ((readFlag s n).setWidth 32) vars ie) := by
  obtain ⟨-, -, hcur⟩ := idle_iff.mp hi
  refine run_command (s := hostState s (command (.flagRead (BitVec.ofNat 8 n.val)) :: rest) a0 r vars ie) hv hi hf rfl
    (wf_flagRead _ n) (exec_flagRead n _) hw ?_ k
  rw [hostState, ← hcur]
  rfl

theorem run_flagClear (n : Fin 2) {rest : List EnvEvent} (hw : waitsForIdle rest = true) (a0 : Half) (r : Word)
    (vars : List (Nat × Word)) (k : Nat) :
    Host.Core.run Sys2Proof.core (k + 2)
        (hostState s (command (.flagClear (BitVec.ofNat 8 n.val)) :: rest) a0 r vars ie) =
      Host.Core.run Sys2Proof.core k (hostState (writeFlag n 0x00#8 s) rest a0 r vars ie) := by
  obtain ⟨-, -, hcur⟩ := idle_iff.mp hi
  refine run_command (s := hostState s (command (.flagClear (BitVec.ofNat 8 n.val)) :: rest) a0 r vars ie) hv hi hf rfl
    (wf_flagClear _ n) (exec_flagClear n _) hw ?_ k
  rw [← writeFlag_hostState, hostState, ← hcur]
  rfl

end

/-- FLAG_TAC takes 11 steps: the flag's value is in `rf`, the flag is clear, and IE is as it was. -/
theorem run_flagTestAndClear {s : State} (hv : s.cfg.valid = true) (hi : idle s = true) (hf : s.faultCode = faultNone)
    (n : Fin 2) {rf rs : Nat} (hne : rf ≠ rs) : ∃ a0 result vars,
    Host.Core.run Sys2Proof.core 11 { s with env := flagTestAndClear n rf rs } =
      .next (hostState (writeFlag n 0x00#8 s) [] a0 result vars s.ie) ∧
    readVar vars rf = (readFlag s n).setWidth 32 := by
  have unmasked : idle { s with ie := s.ie } = true := hi
  have masked := idle_putBit_false unmasked (edgeSource n)
  have cleared := (idle_writeFlag n 0x00#8 s _).trans masked
  refine ⟨(if ieBit s (edgeSource n) then 1#32 else 0#32).setWidth 16, (readFlag s n).setWidth 32,
    writeVar (writeVar s.hostVars rs (if ieBit s (edgeSource n) then 1#32 else 0#32)) rf ((readFlag s n).setWidth 32),
    ?_, readVar_writeVar_same rf _ _⟩
  rw [flagTestAndClear, List.append_assoc, ← List.append_nil (critEnd (edgeSource n) rs)]
  refine (run_critBegin hv hf unmasked (edgeSource n) rs _ s.a0 s.result s.hostVars 8).trans ?_
  refine (run_flagRead hv hf masked n rfl _ _ _ 6).trans ?_
  refine (run_get hv masked rf _ _ _ _ 5).trans ?_
  refine (run_flagClear hv hf masked n rfl _ _ _ 3).trans ?_
  refine (run_critEnd (by rwa [writeFlag_cfg]) (by rwa [writeFlag_faultCode]) cleared (edgeSource n) rs rfl _ _ _ 0).trans ?_
  rw [readVar_writeVar_other _ hne, readVar_writeVar_same, enableWord_getLsbD, putBit_restore]
  rfl

/-- Settles O44. -/
theorem flagsComplete : Obligations.FlagsComplete := by
  refine fun s => ⟨⟨rfl, rfl⟩, ⟨rfl, rfl⟩, ⟨rfl, rfl⟩, ⟨rfl, rfl⟩, fun idx hidx hf hc => ⟨?_, ?_⟩,
    fun n rf rs hv hi hf hne => ?_⟩
  · rw [exec_flagRead_of_ge (by omega), failIssue_first hf hc]
    rfl
  · rw [exec_flagClear_of_ge (by omega), failIssue_first hf hc]
    rfl
  · obtain ⟨a0, result, vars, hrun, hvar⟩ := run_flagTestAndClear hv hi hf n hne
    refine ⟨_, hrun, ?_, hvar⟩
    exact (writeFlag_hostState n 0x00#8 s [] a0 result vars s.ie).symm

/-! ## The byte lanes of TICK (R254) -/

theorem TickWidth_lanes_eq (tw : TickWidth) : tw.lanes = tw.bits / 8 := by
  cases tw <;> rfl

theorem TickWidth_bits_eq (tw : TickWidth) : tw.bits = 8 * tw.lanes := by
  cases tw <;> rfl

theorem TickWidth_lanes_le (tw : TickWidth) : tw.lanes ≤ 4 := by
  cases tw <;> decide

theorem tickLane_toNat (tick : BitVec 32) (lane : Byte) :
    (tickLane tick lane).toNat = tick.toNat / 2 ^ (8 * lane.toNat) % 256 := by
  rw [tickLane, BitVec.toNat_and, BitVec.toNat_ushiftRight, Nat.shiftRight_eq_div_pow]
  exact Nat.and_two_pow_sub_one_eq_mod _ 8

theorem tickLane_eq (tick : BitVec 32) (lane : Byte) :
    tickLane tick lane = BitVec.ofNat 32 (tick.toNat / 2 ^ (8 * lane.toNat) % 256) := by
  rw [← tickLane_toNat, BitVec.ofNat_toNat, BitVec.setWidth_eq]

theorem toNat_ofNat_of_le {k : Nat} (hk : k ≤ 4) : (BitVec.ofNat 8 k).toNat = k :=
  Nat.mod_eq_of_lt (by omega)

/-- The lanes of a number, weighted, add up to its low bytes. -/
theorem lanes_sum (tick : BitVec 32) {n : Nat} (hn : n ≤ 4) :
    ((List.range n).map fun k => (tickLane tick (BitVec.ofNat 8 k)).toNat * 2 ^ (8 * k)).sum =
      tick.toNat % 2 ^ (8 * n) := by
  induction n with
  | zero => simp [Nat.mod_one]
  | succ n ih =>
    rw [List.range_succ, List.map_append, List.sum_append, ih (by omega), List.map_singleton, List.sum_singleton,
      tickLane_toNat, toNat_ofNat_of_le (by omega), Nat.mul_succ, Nat.pow_add, Nat.mod_mul, Nat.mul_comm (_ % 256)]

/-- The host's sum of the lanes it has read (R103). -/
theorem laneSum_eq {t : State} {tick : BitVec 32} {b n : Nat} (hn : n ≤ 4)
    (hlanes : ∀ k < n, hostVar t (b + k) = tickLane tick (BitVec.ofNat 8 k)) :
    laneSum t b n = BitVec.ofNat 32 (tick.toNat % 2 ^ (8 * n)) := by
  induction n with
  | zero => simp [laneSum, Nat.mod_one]
  | succ n ih =>
    rw [laneSum, ih (by omega) fun k hk => hlanes k (by omega), hlanes n (by omega), tickLane_eq,
      toNat_ofNat_of_le (by omega), Nat.mul_succ, Nat.pow_add, Nat.mod_mul]
    apply BitVec.eq_of_toNat_eq
    simp [BitVec.toNat_add, BitVec.toNat_shiftLeft, Nat.shiftLeft_eq, Nat.mul_comm]

/-! ## TICK_ATOMIC (R103) -/

theorem exec_tickReadByte_of_lt {k : Nat} {s : State} (hk : k < s.cfg.tickWidth.lanes) :
    exec (.tickReadByte (BitVec.ofNat 8 k)) s = issueOps [.readTickByte (BitVec.ofNat 8 k)] s := by
  have := TickWidth_lanes_le s.cfg.tickWidth
  rw [exec_tickReadByte, if_pos]
  rwa [toNat_ofNat_of_le (by omega)]

theorem readLanes_succ (b n : Nat) : readLanes b (n + 1) =
    readLanes b n ++ [command (.tickReadByte (BitVec.ofNat 8 n)), get (b + n)] := by
  simp [readLanes, List.range_succ]

/-- The sum is one of host variables only. -/
theorem laneSum_congr {t u : State} (h : t.hostVars = u.hostVars) (b m : Nat) : laneSum t b m = laneSum u b m := by
  induction m with
  | zero => rfl
  | succ m ih => rw [laneSum, laneSum, ih, hostVar, hostVar, h]

/-- IE_RESTORE with a sum of lanes behind it: its word is accepted, the host adds up, and the enable is restored. -/
theorem run_restore_sumLanes {u : State} {n : Source} {rt b m : Nat} (hv : u.cfg.valid = true)
    (hf : u.faultCode = faultNone) (hi : idle u = true) (he : u.env = [command (.ieRestore n), .sumLanes rt b m]) :
    Host.Core.run Sys2Proof.core 3 u =
      .next (writeIe n (restoreBit u) (setHostVar rt (laneSum u b m) { u with env := [] })) := by
  obtain ⟨hc, hn, hcur⟩ := idle_iff.mp hi
  have accepted : step u = .next { u with env := [.sumLanes rt b m], cur := [.restoreIe n (restoreBit u)] } := by
    rw [step_issue hv he hi]
    exact presentWord_of_some (s := { u with env := [.sumLanes rt b m] }) hf (decodeEncode _ _ rfl)
  have sameSum : laneSum { u with env := [.sumLanes rt b m], cur := [.restoreIe n (restoreBit u)] } b m =
      laneSum u b m := by
    apply laneSum_congr
    rfl
  have summed : step { u with env := [.sumLanes rt b m], cur := [.restoreIe n (restoreBit u)] } =
      .next (setHostVar rt (laneSum u b m) { u with env := [], cur := [.restoreIe n (restoreBit u)] }) := by
    rw [← sameSum]
    exact step_sumLanes hv rfl
  have restored := (step_nil (s := setHostVar rt (laneSum u b m)
    { u with env := [], cur := [.restoreIe n (restoreBit u)] }) hv rfl).trans (blockStep_perform hc hn rfl)
  rw [run_succ accepted, run_succ summed, run_succ restored, ← hcur]
  rfl

section
variable {s : State} {ie : BitVec 3} (hv : s.cfg.valid = true) (hf : s.faultCode = faultNone)
  (hi : idle { s with ie := ie } = true)
include hv hf hi

theorem run_tickReadByte {lane : Nat} (hl : lane < s.cfg.tickWidth.lanes) {rest : List EnvEvent}
    (hw : waitsForIdle rest = true) (a0 : Half) (r : Word) (vars : List (Nat × Word)) (k : Nat) :
    Host.Core.run Sys2Proof.core (k + 2)
        (hostState s (command (.tickReadByte (BitVec.ofNat 8 lane)) :: rest) a0 r vars ie) =
      Host.Core.run Sys2Proof.core k (hostState s rest a0 (tickLane s.tick (BitVec.ofNat 8 lane)) vars ie) := by
  obtain ⟨-, -, hcur⟩ := idle_iff.mp hi
  have hle := TickWidth_lanes_le s.cfg.tickWidth
  have hwf : (Instr.tickReadByte (BitVec.ofNat 8 lane)).wf s.cfg.tickWidth = true :=
    decide_eq_true (by rwa [toNat_ofNat_of_le (by omega)])
  refine run_command (s := hostState s (command (.tickReadByte (BitVec.ofNat 8 lane)) :: rest) a0 r vars ie) hv hi hf
    rfl hwf (exec_tickReadByte_of_lt hl) hw ?_ k
  rw [hostState, ← hcur]
  rfl

/-- The lanes of TICK go into consecutive variables of the host, and no other variable changes. -/
theorem run_readLanes (b : Nat) (a0 : Half) (vars : List (Nat × Word)) {n : Nat} (hn : n ≤ s.cfg.tickWidth.lanes) :
    ∀ (rest : List EnvEvent) (r : Word) (k : Nat), ∃ r' vars',
      Host.Core.run Sys2Proof.core (k + 3 * n) (hostState s (readLanes b n ++ rest) a0 r vars ie) =
        Host.Core.run Sys2Proof.core k (hostState s rest a0 r' vars' ie) ∧
      (∀ j < n, readVar vars' (b + j) = tickLane s.tick (BitVec.ofNat 8 j)) ∧
      ∀ x, x < b ∨ b + n ≤ x → readVar vars' x = readVar vars x := by
  induction n with
  | zero => exact fun rest r k => ⟨r, vars, rfl, fun j hj => absurd hj (Nat.not_lt_zero j), fun _ _ => rfl⟩
  | succ n ih =>
    intro rest r k
    obtain ⟨r', vars', hrun, hlanes, hothers⟩ := ih (by omega)
      (command (.tickReadByte (BitVec.ofNat 8 n)) :: get (b + n) :: rest) r (k + 3)
    refine ⟨tickLane s.tick (BitVec.ofNat 8 n), writeVar vars' (b + n) (tickLane s.tick (BitVec.ofNat 8 n)), ?_, ?_, ?_⟩
    · rw [readLanes_succ, List.append_assoc, show k + 3 * (n + 1) = k + 3 + 3 * n by ring]
      refine hrun.trans ((run_tickReadByte hv hf hi (by omega) rfl _ _ _ (k + 1)).trans ?_)
      exact run_get hv hi (b + n) rest _ _ _ k
    · intro j hj
      by_cases hjn : j = n
      · rw [hjn, readVar_writeVar_same]
      · rw [readVar_writeVar_other _ (by omega), hlanes j (by omega)]
    · intro x hx
      rw [readVar_writeVar_other _ (by omega), hothers x (by omega)]

/-- The end of TICK_ATOMIC: the sum is the host's own and does not wait, so the enable is restored in the step after it. -/
theorem run_critEnd_sumLanes (n : Source) (rs rt b m : Nat) (a0 : Half) (r : Word) (vars : List (Nat × Word)) :
    Host.Core.run Sys2Proof.core 4 (hostState s (critEnd n rs ++ [.sumLanes rt b m]) a0 r vars ie) =
      .next (hostState s [] ((readVar vars rs).setWidth 16) r
        (writeVar vars rt (laneSum (hostState s [] a0 r vars ie) b m))
        (putBit ie (sourceBit n) ((readVar vars rs).getLsbD 0))) := by
  refine (run_setArgVar hv hi rs _ a0 r vars 3).trans ?_
  refine (run_restore_sumLanes (u := hostState s (command (.ieRestore n) :: [.sumLanes rt b m]) _ r vars ie) hv hf hi
    rfl).trans ?_
  have sameSum : laneSum (hostState s (command (.ieRestore n) :: [.sumLanes rt b m]) ((readVar vars rs).setWidth 16) r
      vars ie) b m = laneSum (hostState s [] a0 r vars ie) b m := laneSum_congr (Eq.refl vars) b m
  have sameBit : restoreBit (hostState s (command (.ieRestore n) :: [.sumLanes rt b m])
      ((readVar vars rs).setWidth 16) r vars ie) = (readVar vars rs).getLsbD 0 := BitVec.getLsbD_setWidth _ _ 0
  rw [sameSum, sameBit]
  rfl

end

/-- TICK_ATOMIC: `rt` holds TICK, and IE is as it was. -/
theorem run_tickAtomic {s : State} (hv : s.cfg.valid = true) (hi : idle s = true) (hf : s.faultCode = faultNone)
    (htick : s.tick.toNat < 2 ^ s.cfg.tickWidth.bits) (rt : Nat) {rs b : Nat}
    (hrs : rs < b ∨ b + s.cfg.tickWidth.lanes ≤ rs) : ∃ a0 result vars,
    Host.Core.run Sys2Proof.core (3 * s.cfg.tickWidth.lanes + 7)
        { s with env := tickAtomic s.cfg.tickWidth rt rs b } = .next (hostState s [] a0 result vars s.ie) ∧
    readVar vars rt = s.tick := by
  have unmasked : idle { s with ie := s.ie } = true := hi
  have masked := idle_putBit_false unmasked .timer
  obtain ⟨r', vars', hrun, hlanes, hothers⟩ := run_readLanes hv hf masked b s.a0
    (writeVar s.hostVars rs (if s.ie.getLsbD (sourceBit .timer) then 1#32 else 0#32)) le_rfl
    (critEnd .timer rs ++ [.sumLanes rt b s.cfg.tickWidth.lanes])
    (if s.ie.getLsbD (sourceBit .timer) then 1#32 else 0#32) 4
  have saved : (readVar vars' rs).getLsbD 0 = s.ie.getLsbD (sourceBit .timer) := by
    rw [hothers rs hrs, readVar_writeVar_same, enableWord_getLsbD]
  have sum : laneSum (hostState s [] s.a0 r' vars' (putBit s.ie (sourceBit .timer) false)) b s.cfg.tickWidth.lanes =
      s.tick := by
    rw [laneSum_eq (TickWidth_lanes_le _) (tick := s.tick) hlanes, ← TickWidth_bits_eq, Nat.mod_eq_of_lt htick,
      BitVec.ofNat_toNat, BitVec.setWidth_eq]
  refine ⟨(readVar vars' rs).setWidth 16, r', writeVar vars' rt s.tick, ?_, readVar_writeVar_same rt _ _⟩
  rw [tickAtomic, List.append_assoc, List.append_assoc,
    show 3 * s.cfg.tickWidth.lanes + 7 = 4 + 3 * s.cfg.tickWidth.lanes + 3 by ring]
  refine (run_critBegin hv hf unmasked .timer rs _ s.a0 s.result s.hostVars _).trans (hrun.trans ?_)
  rw [run_critEnd_sumLanes hv hf masked, saved, putBit_restore, sum]

/-- Settles O40. -/
theorem tickReadsComplete : Obligations.TickReadsComplete := by
  intro s
  simp only [← TickWidth_lanes_eq]
  refine ⟨⟨rfl, rfl⟩, fun idx hidx => ⟨?_, ?_⟩, fun idx hidx hf hc => ?_, fun htick => ?_,
    fun rt rs b hv hi hf htick hrs => ?_⟩
  · rw [exec_tickReadByte, if_pos hidx, issueOps]
  · rw [← tickLane_eq]
    rfl
  · rw [exec_tickReadByte, if_neg (by omega), failIssue_first hf hc]
    rfl
  · rw [lanes_sum s.tick (TickWidth_lanes_le _), ← TickWidth_bits_eq, Nat.mod_eq_of_lt htick]
  · obtain ⟨a0, result, vars, hrun, hvar⟩ := run_tickAtomic hv hi hf htick rt hrs
    exact ⟨_, hrun, rfl, hvar⟩

end Sys2Proof.Machine
end

section
/-! Lists of plots (R121, R129): what they make of each pixel, and the commands that issue nothing else; the mapping of R63
as a bijection, and CLEAR. -/

namespace Sys2Proof.Machine

/-! ## The coordinate mapping is a bijection (R63) -/

/-- Settles O12: a byte index is a framebuffer row, a panel row and a byte column, and R66 gives the pixel. -/
theorem addrIsBijective : Obligations.AddrIsBijective := by
  refine fun c => ⟨fun x y x' y' i m h h' => pixelAddr_unique h h', fun x y i m h => ⟨pixelAddr_lt h, ?_⟩,
    fun i k hi hk => ?_⟩
  · obtain ⟨X, -, -, -, -, -, -, rfl⟩ := exists_of_pixelAddr h
    exact ⟨X % 8, Nat.mod_lt X (by decide), rfl⟩
  · have hbytes : i < 16 * (4 * (c.wp * c.hp)) := by
      simp only [Config.fbBytes, Config.panels] at hi
      omega
    have hT : 0 < 4 * (c.wp * c.hp) := by omega
    have hrow : i / (4 * (c.wp * c.hp)) < 16 := Nat.div_lt_of_lt_mul (by rwa [Nat.mul_comm] at hbytes)
    have hrem : i % (4 * (c.wp * c.hp)) < 4 * c.wp * c.hp := by
      rw [Nat.mul_assoc]
      exact Nat.mod_lt i hT
    have hwp : 0 < 4 * c.wp := Nat.pos_of_ne_zero fun h0 => by simp [h0] at hrem
    have hpanel : i % (4 * (c.wp * c.hp)) / (4 * c.wp) < c.hp := Nat.div_lt_of_lt_mul hrem
    have column := Nat.mod_lt (i % (4 * (c.wp * c.hp))) hwp
    refine ⟨_, _, (rowLayout c _ _ _ k hrow hpanel column hk).trans ?_⟩
    rw [Nat.div_add_mod, Nat.div_add_mod]

/-! ## Lists of plots -/

/-- The pixel a micro-operation plots. -/
def MicroOp.point : MicroOp → Option (Int × Int)
  | .plot x y _ _ => some (x, y)
  | _ => none

/-- What the plots among `ops` make of the pixel (x, y), by the table of R129. -/
def litAfterAll (nor : NorVariant) (x y : Int) : List MicroOp → Bool → Bool
  | [], lit => lit
  | .plot x' y' mode v :: ops, lit =>
    litAfterAll nor x y ops (if (x', y') = (x, y) then litAfter nor mode v lit else lit)
  | _ :: ops, lit => litAfterAll nor x y ops lit

theorem litAfterAll_plot (nor : NorVariant) (x y x' y' : Int) (mode : Mode) (v : Bool) (ops : List MicroOp) (lit : Bool) :
    litAfterAll nor x y (.plot x' y' mode v :: ops) lit =
      litAfterAll nor x y ops (if (x', y') = (x, y) then litAfter nor mode v lit else lit) := rfl

/-- A plot of a pixel or of another one, in the terms of `litAfterAll`. -/
theorem pixelLit_plot {s : State} (hwf : s.fbWf) (x y x' y' : Int) (mode : Mode) (v : Bool) :
    pixelLit (plot s x' y' mode v) x y = (pixelLit s x y).map fun lit =>
      if (x', y') = (x, y) then litAfter s.cfg.norVariant mode v lit else lit := by
  by_cases h : (x', y') = (x, y)
  · obtain ⟨rfl, rfl⟩ := Prod.mk.inj h
    simp only [if_true]
    exact pixelLit_plot_same x' y' mode v hwf
  · simp only [h, if_false, Option.map_id']
    exact pixelLit_plot_other mode v hwf (Ne.symm h)

/-- Every micro-operation of the list is a plot. -/
def allPlots (ops : List MicroOp) : Prop := ∀ op ∈ ops, ∃ p, op.point = some p

theorem point_eq_some {op : MicroOp} {p : Int × Int} (h : op.point = some p) : ∃ mode v, op = .plot p.1 p.2 mode v := by
  cases op with
  | plot x y mode v =>
    obtain rfl := Option.some.inj h
    exact ⟨mode, v, rfl⟩
  | _ => cases h

/-- R129 for a list of plots. -/
theorem pixelLit_performAll {ops : List MicroOp} : ∀ {s t : State}, allPlots ops → s.fbWf → performAll ops s = .next t →
    ∀ x y, pixelLit t x y = (pixelLit s x y).map (litAfterAll s.cfg.norVariant x y ops) := by
  induction ops with
  | nil =>
    intro s t _ _ h x y
    rw [← Host.Outcome.next.inj h]
    exact (Option.map_id' (x := pixelLit s x y)).symm
  | cons op ops ih =>
    intro s t hplots hwf h x y
    obtain ⟨p, hp⟩ := hplots op List.mem_cons_self
    obtain ⟨mode, v, rfl⟩ := point_eq_some hp
    have hwf' : (plot s p.1 p.2 mode v).fbWf := perform_fbWf (op := .plot p.1 p.2 mode v) rfl hwf
    rw [ih (s := plot s p.1 p.2 mode v) (fun op' hop' => hplots op' (List.mem_cons_of_mem _ hop')) hwf' h x y,
      pixelLit_plot hwf, plot_cfg, Option.map_map]
    rfl

/-- A pixel that no plot of the list names is left as it was. -/
theorem litAfterAll_of_not_mem {nor : NorVariant} {x y : Int} {ops : List MicroOp} :
    (∀ op ∈ ops, op.point ≠ some (x, y)) → ∀ lit, litAfterAll nor x y ops lit = lit := by
  induction ops with
  | nil => exact fun _ _ => rfl
  | cons op ops ih =>
    intro hne lit
    have hrest := ih fun op' hop' => hne op' (List.mem_cons_of_mem _ hop')
    cases op with
    | plot x' y' mode v =>
      have hne' : (x', y') ≠ (x, y) := fun h => hne _ List.mem_cons_self (congrArg some h)
      rw [litAfterAll_plot, if_neg hne', hrest]
    | _ => exact hrest lit

/-- A pixel that exactly one plot of the list names takes that plot's value. -/
theorem litAfterAll_of_mem {nor : NorVariant} {x y : Int} {mode : Mode} {v : Bool} {ops : List MicroOp} :
    (ops.map MicroOp.point).Nodup → .plot x y mode v ∈ ops →
    ∀ lit, litAfterAll nor x y ops lit = litAfter nor mode v lit := by
  induction ops with
  | nil => exact fun _ hmem => nomatch hmem
  | cons op ops ih =>
    intro hnodup hmem lit
    rw [List.map_cons, List.nodup_cons] at hnodup
    obtain ⟨hfresh, hnodup⟩ := hnodup
    rcases List.mem_cons.mp hmem with rfl | hlater
    · rw [litAfterAll_plot, if_pos rfl]
      exact litAfterAll_of_not_mem (fun op' hop' heq => hfresh (List.mem_map.mpr ⟨op', hop', heq⟩)) _
    · have hrest := ih hnodup hlater
      cases op with
      | plot x' y' mode' v' =>
        have hne : (x', y') ≠ (x, y) := fun h =>
          hfresh (List.mem_map.mpr ⟨.plot x y mode v, hlater, congrArg some h.symm⟩)
        rw [litAfterAll_plot, if_neg hne, hrest]
      | _ => exact hrest lit

/-- A pixel listed n times takes the table n times. -/
theorem litAfterAll_plotAll (nor : NorVariant) (x y : Int) (mode : Mode) (v : Bool) (ps : List (Int × Int)) :
    litAfterAll nor x y (plotAll mode v ps) = (litAfter nor mode v)^[ps.count (x, y)] := by
  induction ps with
  | nil => rfl
  | cons p ps ih =>
    funext lit
    rw [plotAll, List.map_cons, litAfterAll_plot, ← plotAll, ih, List.count_cons]
    by_cases h : p = (x, y)
    · simp [h]
    · simp [h]

theorem allPlots_plotAll (mode : Mode) (v : Bool) (ps : List (Int × Int)) : allPlots (plotAll mode v ps) := by
  intro op hop
  obtain ⟨p, -, rfl⟩ := mem_plotAll.mp hop
  exact ⟨p, rfl⟩

/-! ## Commands that only plot -/

/-- A command issued as plots of points with v = 1 does what `drawsPoints` says. -/
theorem drawsPoints_of_exec {i : Instr} {mode : Mode} {ps : List (Int × Int)} {s : State} (hwf : s.fbWf)
    (he : exec i s = issueOps (plotAll mode true ps) s) : drawsPoints i mode ps s := by
  obtain ⟨t, ht, frame⟩ := performAll_paints (s := { s with cur := [] }) (ops := plotAll mode true ps) plotAll_paints
  obtain ⟨-, misses⟩ := performAll_frame ht
  refine ⟨t, he, ht, frame, fun x y => ?_, misses⟩
  rw [pixelLit_performAll (s := { s with cur := [] }) (allPlots_plotAll mode true ps) hwf ht x y, litAfterAll_plotAll]
  rfl

/-- Settles O30. -/
theorem shapesComplete : Obligations.ShapesComplete := fun _ _ hwf =>
  ⟨drawsPoints_of_exec hwf rfl, drawsPoints_of_exec hwf rfl, drawsPoints_of_exec hwf rfl, drawsPoints_of_exec hwf rfl⟩

/-- Settles O15. -/
theorem writePixelCompletes : Obligations.WritePixelCompletes := by
  intro s mode v hwf
  obtain ⟨same, others, -⟩ := plotFollowsTable { s with cur := [] } s.a0.toInt s.a1.toInt mode v hwf
  exact ⟨_, rfl, rfl, plot_frame { s with cur := [] } s.a0.toInt s.a1.toInt mode v, same, others,
    fun a ha => perform_misses (s := { s with cur := [] }) rfl ha⟩

/-! ## CLEAR (R128) -/

/-- Byte writes of one value, ascending, leave that value in each byte. -/
theorem performAll_fill (v : Byte) {n : Nat} : ∀ {s t : State}, s.fbWf → n ≤ s.cfg.fbBytes →
    performAll ((List.range n).map fun i => .fbWrite i v) s = .next t → ∀ a < n, fbRead t a = v := by
  induction n with
  | zero => exact fun _ _ _ a ha => absurd ha (Nat.not_lt_zero a)
  | succ n ih =>
    intro s t hwf hn h a ha
    have paints : ∀ op ∈ (List.range n).map fun i => MicroOp.fbWrite i v, op.paints s.cfg = true := by
      intro op hop
      obtain ⟨i, hi, rfl⟩ := List.mem_map.mp hop
      exact decide_eq_true ((List.mem_range.mp hi).trans hn)
    obtain ⟨u, hu, frame⟩ := performAll_paints paints
    have hcfg : u.cfg = s.cfg := by rw [frame]
    rw [List.range_succ, List.map_append, performAll_append hu, List.map_singleton] at h
    have hlast : perform (.fbWrite n v) u = .next (fbWrite u n v) :=
      checkedFbWrite_eq_next.mpr ⟨by rw [hcfg]; exact hn, rfl⟩
    rw [performAll_cons hlast, performAll_nil] at h
    obtain rfl := Host.Outcome.next.inj h
    by_cases han : a = n
    · rw [han, fbRead_fbWrite_same (performAll_fbWf hu hwf)]
    · rw [fbRead_fbWrite_other u v (Ne.symm han), ih hwf (Nat.le_of_succ_le hn) hu a (by omega)]

/-- Settles O16. -/
theorem clearCompletes : Obligations.ClearCompletes := by
  intro s v hwf
  obtain ⟨t, ht, frame⟩ := performAll_paints (s := { s with cur := [] }) (ops := clearOps s.cfg v) clearOps_paints
  refine ⟨t, rfl, ht, frame, fun a ha => performAll_fill _ (s := { s with cur := [] }) hwf le_rfl ht a ha,
    fun a ha => (performAll_frame ht).2 a ?_⟩
  refine List.all_eq_true.mpr fun op hop => ?_
  obtain ⟨i, hi, rfl⟩ := List.mem_map.mp hop
  have hne : i ≠ a := (lt_of_lt_of_le (List.mem_range.mp hi) ha).ne
  simpa [MicroOp.misses] using hne

end Sys2Proof.Machine
end

section
/-! CHAR_WIDTH and DRAW_CHAR (R145 to R150): the value they return, and each pixel of the cell with its bit. -/

namespace Sys2Proof.Machine

/-! ## CHAR_WIDTH (R145) -/

theorem signedResult_natCast (n : Nat) : signedResult (n : Int) = BitVec.ofNat 32 n := BitVec.ofInt_natCast 32 n

theorem signedResult_byte (b : Byte) : signedResult (b.toNat : Int) = b.setWidth 32 := by
  rw [signedResult_natCast, BitVec.ofNat_toNat]

/-- The width of a glyph whose byte can be read, in either kind of font (R144). -/
theorem glyphWidth_eq_some {s : State} {l0 l1 w : Byte} {gi : Nat} (h0 : fontRead s 0 = some l0)
    (h1 : fontRead s 1 = some l1) (hw : fontRead s (if l0 = 0#8 ∧ l1 = 0#8 then 2 else 6 + gi) = some w) :
    glyphWidth s gi = some w.toNat := by
  have kind := fontFixed_eq_some h0 h1
  by_cases hl : l0 = 0#8 ∧ l1 = 0#8
  · rw [if_pos hl] at hw
    rw [decide_eq_true hl] at kind
    rw [glyphWidth_of_fixed kind, hw, Option.map_some]
  · rw [if_neg hl] at hw
    rw [decide_eq_false hl] at kind
    rw [glyphWidth_of_proportional kind, hw, Option.map_some]

/-- Settles O19: a space counts as 'n', and the width is 0 or the byte that R144 names. -/
theorem charWidthCompletes : Obligations.CharWidthCompletes := by
  intro s ch l0 l1 first count w hv h0 h1 h4 h5 c inFont hw
  have index := glyphIndex_eq_some h4 h5 (if ch = spaceChar then charN else ch)
  have width : (charWidth s ch).map (fun w : Nat => [MicroOp.setResult (signedResult w)]) =
      some [.setResult (if inFont then w.setWidth 32 else 0#32)] := by
    by_cases hin : inFont
    · replace index := index.trans (congrArg some (if_pos hin))
      have read := (charWidth_of_renderable index).trans (glyphWidth_eq_some h0 h1 (hw hin))
      rw [if_pos hin, read, Option.map_some, signedResult_byte]
    · replace index := index.trans (congrArg some (if_neg hin))
      rw [if_neg hin, charWidth_of_unrenderable index]
      rfl
  exact ⟨(exec_charWidth ch s).trans (issueFont_of_some hv width), rfl⟩

/-! ## DRAW_CHAR completes (R150) -/

theorem performAll_then_result {ops : List MicroOp} {s t : State} (v : Word) (h : performAll ops s = .next t) :
    performAll (ops ++ [.setResult v]) s = .next { t with result := v } := by
  rw [performAll_append h]
  rfl

theorem allPlots_drawChar {s : State} {x y : Int} {c : Byte} {mode : Mode} {w : Int} {ops : List MicroOp}
    (h : drawChar s x y c mode = some (w, ops)) : allPlots ops := fun _ hop => by
  obtain ⟨_, _, -, -, _, _, _, _, _, rfl⟩ := mem_drawChar h hop
  exact ⟨_, rfl⟩

/-- DRAW_CHAR whose reads can be made: its plots, then RESULT, and nothing else. -/
theorem execDrawChar_completes {s : State} {mode : Mode} {ch : Byte} {w : Nat} {ops : List MicroOp} (hwf : s.fbWf)
    (hv : s.fontValid = true) (hd : drawChar s s.a0.toInt s.a1.toInt ch mode = some ((w : Int), ops)) :
    ∃ t, exec (.drawChar mode ch) s = .next { s with cur := ops ++ [.setResult (BitVec.ofNat 32 w)] } ∧
      performAll (ops ++ [.setResult (BitVec.ofNat 32 w)]) { s with cur := [] } = .next t ∧
      t = { s with cur := [], result := BitVec.ofNat 32 w, fb := t.fb } ∧
      (∀ x y, pixelLit t x y = (pixelLit s x y).map (litAfterAll s.cfg.norVariant x y ops)) ∧
      ∀ a, ops.all (MicroOp.misses s.cfg a) = true → fbRead t a = fbRead s a := by
  obtain ⟨t, ht, frame⟩ := performAll_paints (s := { s with cur := [] }) (ops := ops) (drawChar_paints hd)
  obtain ⟨-, misses⟩ := performAll_frame ht
  refine ⟨_, (exec_drawChar mode ch s).trans (issueFont_of_some hv ?_), performAll_then_result _ ht, ?_, fun x y => ?_,
    misses⟩
  · rw [hd, Option.map_some, signedResult_natCast]
  · rw [frame]
  · exact pixelLit_performAll (s := { s with cur := [] }) (allPlots_drawChar hd) hwf ht x y

/-! ## The box of a space -/

/-- The points of a box, w columns of h rows. -/
def boxCells (x y : Int) (w h : Nat) : List (Int × Int) :=
  (List.range w).flatMap fun (i : Nat) => (List.range h).map fun (j : Nat) => (x + (i : Int), y + (j : Int))

theorem mem_boxCells {x y : Int} {w h : Nat} {p : Int × Int} :
    p ∈ boxCells x y w h ↔ x ≤ p.1 ∧ p.1 < x + w ∧ y ≤ p.2 ∧ p.2 < y + h := by
  obtain ⟨a, b⟩ := p
  simp only [boxCells, List.mem_flatMap, List.mem_map, List.mem_range, Prod.mk.injEq]
  constructor
  · rintro ⟨i, hi, j, hj, rfl, rfl⟩
    omega
  · rintro ⟨h1, h2, h3, h4⟩
    exact ⟨(a - x).toNat, by omega, (b - y).toNat, by omega, by omega, by omega⟩

theorem nodup_boxCells (x y : Int) (w h : Nat) : (boxCells x y w h).Nodup := by
  refine List.nodup_flatMap.mpr ⟨fun i _ => ?_, List.nodup_range.imp fun {i i'} hne p hp hp' => ?_⟩
  · refine List.nodup_range.map fun j j' heq => ?_
    obtain ⟨-, heq⟩ := Prod.mk.inj heq
    omega
  · obtain ⟨j, -, rfl⟩ := List.mem_map.mp hp
    obtain ⟨j', -, heq⟩ := List.mem_map.mp hp'
    obtain ⟨heq, -⟩ := Prod.mk.inj heq
    omega

/-- Settles O21: the points of the box are listed once. -/
theorem drawCharSpace : Obligations.DrawCharSpace := by
  intro s mode w h hwf hv hx hy hw hh
  have hd : drawChar s s.a0.toInt s.a1.toInt spaceChar mode =
      some ((w : Int), spaceOps s.a0.toInt s.a1.toInt mode h w) := by
    rw [drawChar_space ⟨hx, hy⟩, show charWidth s spaceChar = some w from hw, hh]
    rfl
  obtain ⟨t, hexec, hall, frame, lit, misses⟩ := execDrawChar_completes hwf hv hd
  have cells := spaceOps_eq s.a0.toInt s.a1.toInt mode h w
  refine ⟨_, t, hexec, hall, frame, fun x y hin => ?_, fun x y hout => ?_, misses⟩
  · have hone : (boxCells s.a0.toInt s.a1.toInt w h).count (x, y) = 1 :=
      List.count_eq_one_of_mem (nodup_boxCells _ _ w h) (mem_boxCells.mpr hin)
    rw [lit, cells, litAfterAll_plotAll, ← boxCells, hone, Function.iterate_one]
  · have hzero : (boxCells s.a0.toInt s.a1.toInt w h).count (x, y) = 0 :=
      List.count_eq_zero.mpr fun hmem => hout (mem_boxCells.mp hmem)
    rw [lit, cells, litAfterAll_plotAll, ← boxCells, hzero, Function.iterate_zero, Option.map_id, id]

/-! ## The cell of a glyph (R147 to R149) -/

/-- What `gather` answers when `f` answers on every element. -/
theorem gather_eq_flatMap {α β : Type} {f : α → Option (List β)} {g : α → List β} {l : List α}
    (h : ∀ a ∈ l, f a = some (g a)) : gather f l = some (l.flatMap g) := by
  induction l with
  | nil => rfl
  | cons a l ih =>
    exact gather_cons_some.mpr ⟨g a, _, h a List.mem_cons_self, ih fun b hb => h b (List.mem_cons_of_mem _ hb), rfl⟩

/-- Row `r` of a column lies in column byte `r / 8`, at one of its eight bits, also in the last byte, whose top row is
h - 8 (R148). -/
theorem columnByteRow {h r : Nat} (hr : r < h) : r / 8 < bytesPerColumn h ∧
    0 ≤ (r : Int) - columnByteOrigin h (bytesPerColumn h) (r / 8) ∧
    (r : Int) - columnByteOrigin h (bytesPerColumn h) (r / 8) < 8 := by
  unfold bytesPerColumn columnByteOrigin
  split <;> omega

/-- A column byte holds rows of its own eight only (R148, R149). -/
theorem columnByteRow_unique {h i r k : Nat} (hk : k < 8)
    (hr : columnByteOrigin h (bytesPerColumn h) i + (k : Int) = r) (hlo : i * 8 ≤ r) : r / 8 = i := by
  unfold bytesPerColumn columnByteOrigin at *
  split at hr <;> omega

/-- The plots of a glyph whose bytes are `d j i` (R150). -/
def cellOps (c : Config) (x y : Int) (mode : Mode) (h w : Nat) (d : Nat → Nat → Byte) : List MicroOp :=
  (List.range w).flatMap fun j => (List.range (bytesPerColumn h)).reverse.flatMap fun i =>
    columnByteOps c (x + (j : Nat)) y mode h (bytesPerColumn h) i (d j i)

theorem glyphOps_eq {s : State} {x y : Int} {mode : Mode} {h w off : Nat} {d : Nat → Nat → Byte}
    (hd : ∀ j < w, ∀ i < bytesPerColumn h,
      fontRead s (glyphByteOffset s.cfg.glyphLayout off w (bytesPerColumn h) j i) = some (d j i)) :
    glyphOps s x y mode h w off = some (cellOps s.cfg x y mode h w d) := by
  refine gather_eq_flatMap fun j hj => gather_eq_flatMap fun i hi => ?_
  rw [hd j (List.mem_range.mp hj) i (List.mem_range.mp (List.mem_reverse.mp hi))]
  rfl

/-- The plots of a cell: row `r` of column `j` with bit r - org(r div 8) of its byte. -/
theorem mem_cellOps {c : Config} {x y : Int} {mode : Mode} {h w : Nat} {d : Nat → Nat → Byte} {j r : Nat} (hj : j < w)
    (hr : r < h) : .plot (x + (j : Int)) (y + (r : Int)) mode (glyphBit c.glyphBitOrder (d j (r / 8))
      ((r : Int) - columnByteOrigin h (bytesPerColumn h) (r / 8)).toNat) ∈ cellOps c x y mode h w d := by
  obtain ⟨hbyte, hlo, hhi⟩ := columnByteRow hr
  refine List.mem_flatMap.mpr ⟨j, List.mem_range.mpr hj, List.mem_flatMap.mpr
    ⟨r / 8, List.mem_reverse.mpr (List.mem_range.mpr hbyte), mem_columnByteOps.mpr ?_⟩⟩
  exact ⟨((r : Int) - columnByteOrigin h (bytesPerColumn h) (r / 8)).toNat, by omega, r, by omega, by omega, hr, rfl⟩

/-- The bits of a column byte lie on rows of their own. -/
theorem nodup_columnByteOps (c : Config) (x y : Int) (mode : Mode) (h bpc i : Nat) (d : Byte) :
    ((columnByteOps c x y mode h bpc i d).map MicroOp.point).Nodup := by
  rw [columnByteOps, List.map_filterMap]
  refine List.Nodup.filterMap (fun k k' p hp hp' => ?_) List.nodup_range
  simp only [Option.mem_def, Option.map_eq_some_iff, Option.ite_none_right_eq_some, Option.some.injEq] at hp hp'
  obtain ⟨op, ⟨-, rfl⟩, rfl⟩ := hp
  obtain ⟨op', ⟨-, rfl⟩, heq⟩ := hp'
  obtain ⟨-, heq⟩ := Prod.mk.inj (Option.some.inj heq)
  omega

/-- No two plots of a cell name the same pixel. -/
theorem nodup_cellOps (c : Config) (x y : Int) (mode : Mode) (h w : Nat) (d : Nat → Nat → Byte) :
    ((cellOps c x y mode h w d).map MicroOp.point).Nodup := by
  rw [cellOps, List.map_flatMap]
  refine List.nodup_flatMap.mpr ⟨fun j _ => ?_, List.nodup_range.imp fun {j j'} hne p hp hp' => ?_⟩
  · rw [List.map_flatMap]
    refine List.nodup_flatMap.mpr ⟨fun i _ => nodup_columnByteOps c _ y mode h _ i _, ?_⟩
    refine (List.nodup_reverse.mpr List.nodup_range).imp fun {i i'} hne p hp hp' => hne ?_
    obtain ⟨op, hop, rfl⟩ := List.mem_map.mp hp
    obtain ⟨op', hop', heq⟩ := List.mem_map.mp hp'
    obtain ⟨k, hk, r, hr, hlo, -, rfl⟩ := mem_columnByteOps.mp hop
    obtain ⟨k', hk', r', hr', hlo', -, rfl⟩ := mem_columnByteOps.mp hop'
    obtain ⟨-, heq⟩ := Prod.mk.inj (Option.some.inj heq)
    have sameRow : r = r' := by omega
    rw [← columnByteRow_unique hk hr hlo, ← columnByteRow_unique hk' hr' hlo', sameRow]
  · obtain ⟨op, hop, rfl⟩ := List.mem_map.mp hp
    obtain ⟨op', hop', heq⟩ := List.mem_map.mp hp'
    obtain ⟨i, -, hop⟩ := List.mem_flatMap.mp hop
    obtain ⟨i', -, hop'⟩ := List.mem_flatMap.mp hop'
    obtain ⟨_, _, _, _, _, _, rfl⟩ := mem_columnByteOps.mp hop
    obtain ⟨_, _, _, _, _, _, rfl⟩ := mem_columnByteOps.mp hop'
    obtain ⟨heq, -⟩ := Prod.mk.inj (Option.some.inj heq)
    omega

/-- Settles O22. -/
theorem drawCharGlyph : Obligations.DrawCharGlyph := by
  intro s mode ch gi w h off hwf hv hx hy hch hgi hw hh hoff hread
  obtain ⟨d, hd⟩ : ∃ d : Nat → Nat → Byte, ∀ j < w, ∀ i < bytesPerColumn h,
      fontRead s (glyphByteOffset s.cfg.glyphLayout off w (bytesPerColumn h) j i) = some (d j i) :=
    ⟨fun j i => (fontRead s (glyphByteOffset s.cfg.glyphLayout off w (bytesPerColumn h) j i)).getD 0#8, fun j hj i hi => by
      obtain ⟨b, hb⟩ := Option.isSome_iff_exists.mp (hread j hj i hi)
      simp [hb]⟩
  have hdraw : drawChar s s.a0.toInt s.a1.toInt ch mode =
      some ((w : Int), cellOps s.cfg s.a0.toInt s.a1.toInt mode h w d) := by
    rw [drawChar_of_renderable ⟨hx, hy⟩ hch hgi, hw, hh, Option.bind_some, Option.bind_some, hoff, Option.bind_some,
      glyphOps_eq hd, Option.map_some]
  obtain ⟨t, hexec, hall, frame, lit, misses⟩ := execDrawChar_completes hwf hv hdraw
  refine ⟨_, t, hexec, hall, frame, fun j hj r hr => ?_, fun x y hout => ?_, misses⟩
  · obtain ⟨hbyte, -, -⟩ := columnByteRow hr
    refine ⟨d j (r / 8), hd j hj (r / 8) hbyte, ?_⟩
    rw [lit, funext (litAfterAll_of_mem (nodup_cellOps s.cfg _ _ mode h w d) (mem_cellOps hj hr))]
  · have untouched : ∀ op ∈ cellOps s.cfg s.a0.toInt s.a1.toInt mode h w d, op.point ≠ some (x, y) := by
      intro op hop heq
      obtain ⟨j, hj, r, hr, v, rfl⟩ := mem_glyphOps (glyphOps_eq hd) hop
      obtain ⟨rfl, rfl⟩ := Prod.mk.inj (Option.some.inj heq)
      omega
    rw [lit, funext (litAfterAll_of_not_mem untouched)]
    exact Option.map_id'

end Sys2Proof.Machine
end

section
/-! The scan-out as the display shows it (R229, R230), and the test patterns (R200, R201). -/

namespace Sys2Proof.Machine

/-! ## Four scans (R224, R230) -/

/-- A scan that is not skipped lights the rows of its phase and goes on to the next. -/
theorem enter_timer_phase {s : State} (h : s.busBusy = false) :
    (enter .timer s).phase = s.phase + 1#2 ∧ (enter .timer s).rowAddr = s.phase ∧ (enter .timer s).rowEn = true := by
  rw [enter_timer_of_free h]
  exact ⟨rfl, rfl, rfl⟩

theorem timerRuns_phase {n : Nat} : ∀ {s : State}, s.busBusy = false →
    (timerRuns n s).phase = s.phase + BitVec.ofNat 2 n ∧
    (timerRuns (n + 1) s).rowAddr = s.phase + BitVec.ofNat 2 n ∧ (timerRuns (n + 1) s).rowEn = true := by
  induction n with
  | zero =>
    intro s h
    obtain ⟨-, haddr, hen⟩ := enter_timer_phase h
    exact ⟨(BitVec.add_zero s.phase).symm, haddr.trans (BitVec.add_zero s.phase).symm, hen⟩
  | succ n ih =>
    intro s h
    obtain ⟨hphase, -⟩ := enter_timer_phase h
    obtain ⟨ihphase, ihaddr, ihen⟩ := ih (s := enter .timer s) (by rwa [enter_busBusy])
    have next : s.phase + 1#2 + BitVec.ofNat 2 n = s.phase + BitVec.ofNat 2 (n + 1) := by
      rw [BitVec.add_assoc, BitVec.add_comm 1#2, ← BitVec.ofNat_add]
    rw [hphase, next] at ihphase ihaddr
    exact ⟨ihphase, ihaddr, ihen⟩

/-- One of four consecutive phases is the given one. -/
theorem exists_phase (p : BitVec 2) (y : Nat) : ∃ k < 4, (p + BitVec.ofNat 2 k).toNat = y % 4 := by
  have hp : p.toNat < 4 := p.isLt
  refine ⟨(y + 4 - p.toNat) % 4, Nat.mod_lt _ (by decide), ?_⟩
  rw [BitVec.toNat_add, BitVec.toNat_ofNat]
  omega

/-- Settles O47. -/
theorem fourScansRefreshAllRows : Obligations.FourScansRefreshAllRows := by
  intro s h
  refine ⟨?_, fun k _ => (timerRuns_phase h).2, fun y => ?_⟩
  · rw [(timerRuns_phase h).1]
    exact BitVec.add_zero s.phase
  · obtain ⟨k, hk, hy⟩ := exists_phase s.phase y
    exact ⟨k, hk, by rw [(timerRuns_phase h).2.1, hy]⟩

/-! ## What the display shows (R229) -/

theorem serBytes_append (l l' : List OutEvent) : serBytes (l ++ l') = serBytes l ++ serBytes l' :=
  List.filterMap_append

theorem serBytes_map_ser (bs : List Byte) : serBytes (bs.map .ser) = bs := by
  simp [serBytes, List.filterMap_map]

/-- A scan ends in one LATCH. -/
theorem upToLatch_scan (out : List OutEvent) (r : BitVec 2) :
    upToLatch (out ++ [.blank, .latch, .rowSel r, .unblank]) = out ++ [.blank, .latch] := by
  simp [upToLatch]

/-- The bytes the receivers hold after a scan are the ones it sent. -/
theorem latchedBytes_enter_timer {s : State} (h : s.busBusy = false) :
    latchedBytes (enter .timer s) = scannedBytes s := by
  have hout : (enter .timer s).out = s.out ++ (scannedBytes s).map .ser ++ [.blank, .latch, .rowSel s.phase, .unblank] := by
    rw [enter_timer_of_free h, ← scanBytes_eq_map_ser]
    rfl
  have sent : serBytes (upToLatch (enter .timer s).out) = serBytes s.out ++ scannedBytes s := by
    rw [hout, upToLatch_scan, serBytes_append, serBytes_append, serBytes_map_ser]
    exact List.append_nil _
  simp only [latchedBytes, sent, List.length_append, length_scannedBytes, enter_cfg, Nat.add_sub_cancel]
  exact List.drop_left

/-- Settles O46: byte 4b + (3 - q) of a scan is byte b of band q, in the framebuffer row of its phase. -/
theorem displayShowsTheRows : Obligations.DisplayShowsTheRows := by
  intro s x y lit hfree hlit
  obtain ⟨hphase, haddr, hen⟩ := enter_timer_phase hfree
  rcases ha : pixelAddr s.cfg (x : Int) (y : Int) with _ | ⟨i, m⟩
  · rw [pixelLit_eq_none.mpr ha] at hlit
    cases hlit
  obtain ⟨⟨-, -, hx, hy⟩, hi, hm⟩ := pixelAddr_eq_some.mp ha
  simp only [Int.toNat_natCast, Nat.mul_comm _ 32] at hi hm
  have hpanel := panelIndex_lt (wp := s.cfg.wp) (hp := s.cfg.hp) (x := x) (y := y)
    (by simp only [Config.gridWidth, panelWidth] at hx; omega) (by simp only [Config.gridHeight, panelHeight] at hy; omega)
  generalize hX : x % 32 + 32 * (x / 32 + s.cfg.wp * (y / 16)) = X at hi hm ⊢
  have hcolumn : X / 8 < 4 * s.cfg.panels := by
    simp only [Config.panels]
    omega
  rw [pixelMask_eq_twoPow (Nat.mod_lt X (by decide))] at hm
  subst hm
  rw [pixelLit_of_pixelAddr (by omega) ha, Option.some.injEq] at hlit
  subst hlit
  have hn : 4 * (X / 8) + (3 - y % 16 / 4) < 16 * s.cfg.panels := by omega
  have hmod : y % 16 % 4 = y % 4 := Nat.mod_mod_of_dvd y (by decide)
  simp only [displayLit, hen, haddr, latchedBytes_enter_timer hfree, getElem?_scannedBytes hn, hmod, panelHeight,
    Nat.mod_lt y (show 16 > 0 by decide), decide_true, Bool.true_and, Bool.and_true]
  by_cases hrow : y % 4 = s.phase.toNat
  · have hbyte : scanByte s (4 * (X / 8) + (3 - y % 16 / 4)) = fbRead s i := by
      have hquot : (4 * (X / 8) + (3 - y % 16 / 4)) / 4 = X / 8 := by omega
      have hband : 3 - (4 * (X / 8) + (3 - y % 16 / 4)) % 4 = y % 16 / 4 := by omega
      have hfbRow : 4 * (y % 16 / 4) + y % 4 = y % 16 := by omega
      rw [scanByte, hquot, hband, hi, ← hrow]
      congr 1
      calc s.cfg.rowBytes * (y % 4) + X / 8 + s.cfg.bandBytes * (y % 16 / 4)
          = X / 8 + (4 * (y % 16 / 4) + y % 4) * s.cfg.rowBytes := by
            simp only [Config.rowBytes, Config.bandBytes]
            ring
        _ = X / 8 + y % 16 * s.cfg.rowBytes := by rw [hfbRow]
    rw [hbyte, decide_eq_true hrow, beq_iff_eq.mpr hrow]
  · simp [hrow]

/-! ## The test patterns (R200, R201) -/

/-- A pixel of the grid is lit or dark (R120). -/
theorem exists_pixelLit {s : State} {x y : Nat} (hx : x < s.cfg.gridWidth) (hy : y < s.cfg.gridHeight) :
    ∃ lit, pixelLit s (x : Int) (y : Int) = some lit := by
  refine Option.ne_none_iff_exists'.mp fun hnone => ?_
  rw [pixelLit_eq_none, pixelAddr_of_lt hx hy] at hnone
  cases hnone

theorem litAfter_normal (nor : NorVariant) (v lit : Bool) : litAfter nor .normal v lit = v := by
  cases v <;> rfl

/-- With a grid width that is a power of two, pixel number x + pw*y of a pattern is the pixel (x, y). -/
theorem patternPoint_twoPow {m x : Nat} (hx : x < 2 ^ m) (y : Nat) :
    patternPoint (2 ^ m) (x + 2 ^ m * y) = ((x : Int), (y : Int)) := by
  have hmod : (x + 2 ^ m * y) % 2 ^ m = x := by rw [Nat.add_mul_mod_self_left, Nat.mod_eq_of_lt hx]
  rw [patternPoint, Nat.and_two_pow_sub_one_eq_mod, hmod, Nat.add_sub_cancel_left,
    Nat.mul_div_cancel_left y (Nat.two_pow_pos m)]

/-- What the pixel (x, y) of a pattern shows: the checkerboard or the stripes of R93. -/
def patternShows (k : TestKind) (x y : Nat) : Bool :=
  match k with
  | .checker0 => (x + y) % 2 == 1
  | .checker1 => (x + y) % 2 == 0
  | .stripe0 => x % 2 == 1
  | .stripe1 => x % 2 == 0

theorem patternValue_twoPow {m x : Nat} (hm : 0 < m) (hx : x < 2 ^ m) (y : Nat) (k : TestKind) :
    patternValue k (2 ^ m) (x + 2 ^ m * y) = patternShows k x y := by
  have hdiv : (x + 2 ^ m * y) / 2 ^ m = y := by
    rw [Nat.add_mul_div_left _ _ (Nat.two_pow_pos m), Nat.div_eq_of_lt hx, Nat.zero_add]
  have oddRow : ((x + 2 ^ m * y) &&& 2 ^ m != 0) = decide (y % 2 = 1) := by
    rw [Nat.and_two_pow, Nat.testBit_eq_decide_div_mod_eq, hdiv]
    by_cases h : y % 2 = 1 <;> simp [h]
  have column : (x + 2 ^ m * y) % 2 = x % 2 := by
    obtain ⟨m', rfl⟩ := Nat.exists_eq_succ_of_ne_zero hm.ne'
    rw [Nat.pow_succ, Nat.mul_assoc, Nat.mul_left_comm, Nat.add_mul_mod_self_left]
  have hsum : (x + y) % 2 = (x % 2 + y % 2) % 2 := Nat.add_mod x y 2
  rcases Nat.mod_two_eq_zero_or_one x with hx2 | hx2 <;> rcases Nat.mod_two_eq_zero_or_one y with hy2 | hy2 <;>
    cases k <;> simp [patternValue, patternShows, oddRow, column, hsum, hx2, hy2]

theorem testPattern_eq (c : Config) (k : TestKind) : testPattern c k = (List.range (512 * c.panels)).map fun ui =>
    .plot (patternPoint c.gridWidth ui).1 (patternPoint c.gridWidth ui).2 .normal (patternValue k c.gridWidth ui) := rfl

theorem testPattern_point {c : Config} {k : TestKind} : ∀ op ∈ testPattern c k, ∃ p, op.point = some p := by
  intro op hop
  obtain ⟨ui, -, rfl⟩ := List.mem_map.mp hop
  exact ⟨_, rfl⟩

/-- With a grid width that is a power of two, a pattern plots no pixel twice. -/
theorem nodup_testPattern {c : Config} {m : Nat} (k : TestKind) (hw : c.gridWidth = 2 ^ m) :
    ((testPattern c k).map MicroOp.point).Nodup := by
  rw [testPattern_eq, List.map_map]
  refine List.nodup_range.map fun ui ui' heq => ?_
  have split : ∀ u : Nat, patternPoint (2 ^ m) u = (((u % 2 ^ m : Nat) : Int), ((u / 2 ^ m : Nat) : Int)) := fun u => by
    conv_lhs => rw [← Nat.mod_add_div u (2 ^ m)]
    exact patternPoint_twoPow (Nat.mod_lt u (Nat.two_pow_pos m)) _
  simp only [Function.comp_apply, MicroOp.point, hw, split, Option.some.injEq, Prod.mk.injEq, Nat.cast_inj] at heq
  obtain ⟨hmod, hdiv⟩ := heq
  rw [← Nat.mod_add_div ui (2 ^ m), hmod, hdiv, Nat.mod_add_div]

/-- Settles O35. -/
theorem testPatternCompletes : Obligations.TestPatternCompletes := by
  intro s k hwf
  have paints : ∀ op ∈ testPattern s.cfg k, op.paints s.cfg = true := fun op hop => by
    obtain ⟨ui, -, rfl⟩ := List.mem_map.mp hop
    rfl
  obtain ⟨t, ht, frame⟩ := performAll_paints (s := { s with cur := [] }) (ops := testPattern s.cfg k) paints
  obtain ⟨-, misses⟩ := performAll_frame ht
  refine ⟨_, t, rfl, by simp [testPattern_eq], ht, frame, misses, fun n hwp x y hx hy => ?_⟩
  have hw : s.cfg.gridWidth = 2 ^ (n + 5) := by
    rw [Config.gridWidth, panelWidth, hwp, Nat.pow_add, Nat.mul_comm]
  have hx' : x < 2 ^ (n + 5) := hw ▸ hx
  have number_lt : x + 2 ^ (n + 5) * y < 512 * s.cfg.panels := by
    have hy' : y + 1 ≤ 16 * s.cfg.hp := hy
    calc x + 2 ^ (n + 5) * y < 2 ^ (n + 5) * (y + 1) := by rw [Nat.mul_succ]; omega
      _ ≤ s.cfg.gridWidth * (16 * s.cfg.hp) := by rw [hw]; exact Nat.mul_le_mul_left _ hy'
      _ = 512 * s.cfg.panels := by
        simp only [Config.gridWidth, panelWidth, Config.panels]
        ring
  have hmem : .plot (x : Int) (y : Int) .normal (patternValue k (2 ^ (n + 5)) (x + 2 ^ (n + 5) * y)) ∈
      testPattern s.cfg k := by
    refine List.mem_map.mpr ⟨_, List.mem_range.mpr number_lt, ?_⟩
    rw [hw, patternPoint_twoPow hx']
  rw [pixelLit_performAll (s := { s with cur := [] }) testPattern_point hwf ht,
    funext (litAfterAll_of_mem (nodup_testPattern k hw) hmem), patternValue_twoPow (Nat.succ_pos _) hx' y k,
    funext (litAfter_normal s.cfg.norVariant (patternShows k x y))]
  obtain ⟨lit, hlit⟩ := exists_pixelLit (s := { s with cur := [] }) hx hy
  rw [hlit]
  cases k <;> rfl

end Sys2Proof.Machine
end

section
/-! Lines and boxes (R180 to R184): length, ends, 8-connection, and which points they plot. -/

namespace Sys2Proof.Machine

/-! ## The loop of DrawLine (R180) -/

@[simp] theorem length_lineSteps (n : Nat) (a b f sa sb da db : Int) : (lineSteps n a b f sa sb da db).length = n := by
  induction n generalizing a b f with
  | zero => rfl
  | succ n ih => simp [lineSteps, ih]

/-- Step by step the major coordinate moves by its sign. -/
theorem lineSteps_major (n : Nat) (a b f sa sb da db : Int) :
    (lineSteps n a b f sa sb da db).map Prod.fst = (List.range n).map fun (k : Nat) => a + sa * ((k : Int) + 1) := by
  induction n generalizing a b f with
  | zero => rfl
  | succ n ih =>
    rw [lineSteps, List.map_cons, ih, List.range_succ_eq_map, List.map_cons, List.map_map]
    congr 1
    · simp
    · refine List.map_congr_left fun k _ => ?_
      simp only [Function.comp_apply, Nat.succ_eq_add_one]
      push_cast
      ring

/-- Two points of which each coordinate differs by at most one (R180). -/
def adjacent (p q : Int × Int) : Prop := (q.1 - p.1).natAbs ≤ 1 ∧ (q.2 - p.2).natAbs ≤ 1

/-- Each step moves to an adjacent point. -/
theorem lineSteps_chain {sa sb : Int} (hsa : sa.natAbs = 1) (hsb : sb.natAbs = 1) (n : Nat) (a b f da db : Int) :
    ((a, b) :: lineSteps n a b f sa sb da db).IsChain adjacent := by
  induction n generalizing a b f with
  | zero => exact List.isChain_singleton _
  | succ n ih =>
    rw [lineSteps]
    refine List.isChain_cons_cons.mpr ⟨⟨?_, ?_⟩, ih _ _ _⟩
    · simp [hsa]
    · dsimp only
      split <;> omega

/-- The error term counts the steps along the minor axis: it stays in a range of 2N, so after `n` steps the line has gone
the `m` minor steps that keep it there. `N` and `M` are the longer and the shorter distance of R180. -/
theorem lineSteps_last {N M sa sb : Int} (hM0 : 0 ≤ M) (hM : M ≤ N) (n : Nat) (a b f m : Int)
    (hf : 2 * M - 2 * N ≤ f ∧ f < 2 * M)
    (hm : 2 * M - 2 * N ≤ f + 2 * M * n - 2 * N * m ∧ f + 2 * M * n - 2 * N * m < 2 * M) :
    ((a, b) :: lineSteps n a b f sa sb (2 * N) (2 * M)).getLast? = some (a + sa * n, b + sb * m) := by
  induction n generalizing a b f m with
  | zero =>
    have hm0 : m = 0 := by
      simp only [Nat.cast_zero, mul_zero, add_zero] at hm
      by_contra hne
      rcases lt_or_gt_of_ne hne with hlt | hgt
      · nlinarith
      · have hN : 2 * N * 1 ≤ 2 * N * m := mul_le_mul_of_nonneg_left hgt (by omega)
        omega
    simp [lineSteps, hm0]
  | succ n ih =>
    push_cast at hm ⊢
    rw [lineSteps, List.getLast?_cons_cons]
    by_cases hpos : f ≥ 0
    · simp only [hpos, if_true]
      rw [ih _ _ _ (m - 1) (by omega) (by constructor <;> nlinarith)]
      congr 2 <;> ring
    · simp only [hpos, if_false]
      rw [ih _ _ _ m (by omega) (by constructor <;> nlinarith)]
      congr 2
      ring

/-! ## A line along its longer axis -/

/-- The points of a line of `N` steps along its major axis and `M` along the other, with the major coordinate first. -/
def majorLine (a b : Int) (N M : Nat) (sa sb : Int) : List (Int × Int) :=
  (a, b) :: lineSteps N a b (2 * M - N) sa sb (2 * N) (2 * M)

/-- A line is drawn along the axis of its longer distance (R180). -/
theorem linePoints_eq (x1 y1 x2 y2 : Int) : linePoints x1 y1 x2 y2 =
    if (y2 - y1).natAbs < (x2 - x1).natAbs then
      majorLine x1 y1 (x2 - x1).natAbs (y2 - y1).natAbs (lineSign (x2 - x1)) (lineSign (y2 - y1))
    else (majorLine y1 x1 (y2 - y1).natAbs (x2 - x1).natAbs (lineSign (y2 - y1)) (lineSign (x2 - x1))).map Prod.swap := by
  have halve : ∀ n : Nat, (2 * (n : Int)) / 2 = n := fun n => by omega
  unfold linePoints majorLine
  simp only [halve]
  split
  · rw [if_pos (by omega)]
  · rw [if_neg (by omega)]
    rfl

theorem length_majorLine (a b : Int) (N M : Nat) (sa sb : Int) : (majorLine a b N M sa sb).length = N + 1 := by
  rw [majorLine, List.length_cons, length_lineSteps]

theorem majorLine_last {N M : Nat} (hM : M ≤ N) (a b sa sb : Int) :
    (majorLine a b N M sa sb).getLast? = some (a + sa * N, b + sb * M) := by
  rcases Nat.eq_zero_or_pos N with rfl | hN
  · obtain rfl := Nat.le_zero.mp hM
    simp [majorLine, lineSteps]
  · refine lineSteps_last (by omega) (by omega) N a b _ M (by omega) ?_
    have cancel : (2 * (M : Int) - N) + 2 * M * N - 2 * N * M = 2 * M - N := by ring
    rw [cancel]
    omega

theorem nodup_majorLine {N M : Nat} {a b sa sb : Int} (hsa : sa.natAbs = 1) : (majorLine a b N M sa sb).Nodup := by
  have major : (majorLine a b N M sa sb).map Prod.fst = (List.range (N + 1)).map fun (k : Nat) => a + sa * (k : Int) := by
    rw [majorLine, List.map_cons, lineSteps_major, List.range_succ_eq_map, List.map_cons, List.map_map]
    simp [Function.comp_def]
  refine List.Nodup.of_map Prod.fst ?_
  rw [major]
  refine List.nodup_range.map fun k k' heq => ?_
  have hsa' : sa = 1 ∨ sa = -1 := by omega
  obtain rfl | rfl := hsa' <;> omega

theorem majorLine_chain {N M : Nat} {a b sa sb : Int} (hsa : sa.natAbs = 1) (hsb : sb.natAbs = 1) :
    (majorLine a b N M sa sb).IsChain adjacent :=
  lineSteps_chain hsa hsb N a b _ _ _

theorem natAbs_lineSign (d : Int) : (lineSign d).natAbs = 1 := by
  unfold lineSign
  split <;> rfl

theorem add_lineSign_mul (a b : Int) : a + lineSign (b - a) * ((b - a).natAbs : Int) = b := by
  unfold lineSign
  split <;> omega

/-- Settles O31, along either axis. -/
theorem lineShape : Obligations.LineShape := by
  intro x1 y1 x2 y2
  rw [linePoints_eq]
  split
  · rename_i hlong
    refine ⟨?_, rfl, ?_, nodup_majorLine (natAbs_lineSign _), majorLine_chain (natAbs_lineSign _) (natAbs_lineSign _)⟩
    · rw [length_majorLine, max_eq_left hlong.le]
    · rw [majorLine_last hlong.le, add_lineSign_mul, add_lineSign_mul]
  · rename_i hsteep
    have hle : (x2 - x1).natAbs ≤ (y2 - y1).natAbs := Nat.le_of_not_lt hsteep
    refine ⟨?_, rfl, ?_, (nodup_majorLine (natAbs_lineSign _)).map Prod.swap_injective, ?_⟩
    · rw [List.length_map, length_majorLine, max_eq_right hle]
    · rw [List.getLast?_map, majorLine_last hle, add_lineSign_mul, add_lineSign_mul]
      rfl
    · refine (List.isChain_map _).mpr ((majorLine_chain (natAbs_lineSign _) (natAbs_lineSign _)).imp fun p q h => ?_)
      exact ⟨h.2, h.1⟩

/-! ## Boxes (R183, R184) -/

theorem nodup_linePoints (x1 y1 x2 y2 : Int) : (linePoints x1 y1 x2 y2).Nodup := by
  obtain ⟨-, -, -, hnodup, -⟩ := lineShape x1 y1 x2 y2
  exact hnodup

/-- A line plots a point once if the point lies on it. -/
theorem count_linePoints (x1 y1 x2 y2 : Int) (p : Int × Int) :
    (linePoints x1 y1 x2 y2).count p = if p ∈ linePoints x1 y1 x2 y2 then 1 else 0 := by
  split
  · rename_i h
    exact List.count_eq_one_of_mem (nodup_linePoints x1 y1 x2 y2) h
  · rename_i h
    exact List.count_eq_zero.mpr h

theorem mem_boxPoints {x1 y1 x2 y2 : Int} {p : Int × Int} : p ∈ boxPoints x1 y1 x2 y2 ↔
    min x1 x2 ≤ p.1 ∧ p.1 ≤ max x1 x2 ∧ min y1 y2 ≤ p.2 ∧ p.2 ≤ max y1 y2 ∧
      (p.1 = x1 ∨ p.1 = x2 ∨ p.2 = y1 ∨ p.2 = y2) := by
  simp only [boxPoints, List.mem_append, mem_linePoints_horizontal, mem_linePoints_vertical]
  omega

/-- Settles O32: a corner lies on two of the four lines, every other point of the border on one. -/
theorem boxOutline : Obligations.BoxOutline := by
  refine fun x1 y1 x2 y2 => ⟨fun x y => mem_boxPoints, fun hx hy p hp => ?_, ?_⟩
  · rw [mem_boxPoints] at hp
    simp only [boxPoints, List.count_append, count_linePoints, mem_linePoints_horizontal, mem_linePoints_vertical]
    split_ifs <;> omega
  · simp [boxPoints, linePoints_vertical]

theorem columns_eq (x1 x2 : Int) :
    columns x1 x2 = (List.range (x2 - x1 + 1).toNat).map fun (k : Nat) => x1 + (k : Int) := by
  simp [columns, map_natCast_list]

theorem mem_columns {x1 x2 x : Int} : x ∈ columns x1 x2 ↔ x1 ≤ x ∧ x ≤ x2 := by
  simp only [columns_eq, List.mem_map, List.mem_range]
  constructor
  · rintro ⟨k, hk, rfl⟩
    omega
  · intro h
    exact ⟨(x - x1).toNat, by omega, by omega⟩

theorem nodup_columns (x1 x2 : Int) : (columns x1 x2).Nodup := by
  rw [columns_eq]
  exact List.nodup_range.map fun k k' heq => by simpa using heq

/-- Settles O33: the columns differ, and each is a line. -/
theorem filledBoxArea : Obligations.FilledBoxArea := by
  intro x1 y1 x2 y2
  constructor
  · intro x y
    simp only [filledBoxPoints, List.mem_flatMap, mem_columns, mem_linePoints_vertical]
    constructor
    · rintro ⟨b, ⟨h1, h2⟩, rfl, h3, h4⟩
      exact ⟨h1, h2, h3, h4⟩
    · rintro ⟨h1, h2, h3, h4⟩
      exact ⟨x, ⟨h1, h2⟩, rfl, h3, h4⟩
  · refine List.nodup_flatMap.mpr ⟨fun b _ => nodup_linePoints b y1 b y2, (nodup_columns x1 x2).imp ?_⟩
    intro b b' hne p hp hp'
    obtain ⟨hb, -⟩ := mem_linePoints_vertical.mp hp
    obtain ⟨hb', -⟩ := mem_linePoints_vertical.mp hp'
    exact hne (hb.symm.trans hb')

end Sys2Proof.Machine
end

section
/-! Circles (R190 to R192): the offsets of the octant that R190's loop keeps, and the points CircleSub makes of each. -/

namespace Sys2Proof.Machine

/-! ## The points of one offset (R191) -/

theorem mem_circleSub {cx cy x y : Int} (hx : 0 ≤ x) (hy : 0 ≤ y) {q : Int × Int} : q ∈ circleSub cx cy x y ↔
    x ≤ y ∧ min ((q.1 - cx).natAbs : Int) (q.2 - cy).natAbs = x ∧
      max ((q.1 - cx).natAbs : Int) (q.2 - cy).natAbs = y := by
  obtain ⟨u, v⟩ := q
  unfold circleSub
  split_ifs <;> simp only [List.mem_cons, List.not_mem_nil, or_false, false_iff, Prod.mk.injEq] <;> omega

theorem nodup_circleSub {cx cy x y : Int} (hx : 0 ≤ x) (hne : 0 < x ∨ 0 < y) :
    (circleSub cx cy x y).Nodup := by
  unfold circleSub
  split_ifs <;>
    simp only [List.nodup_cons, List.mem_cons, List.not_mem_nil, or_false, Prod.mk.injEq, List.nodup_nil, not_false_eq_true,
      and_true] <;> omega

/-- Two neighbours of a list may change places. -/
theorem perm_swap_cons {α : Type} {l l' : List α} (a b : α) (h : l.Perm l') : (b :: a :: l).Perm (a :: b :: l') :=
  (List.Perm.swap a b l).trans ((h.cons b).cons a)

/-- CircleSub is symmetric in x = cx: its points left and right of the centre stand next to each other. -/
theorem circleSub_reflectX (cx cy x y : Int) :
    ((circleSub cx cy x y).map fun q : Int × Int => (2 * cx - q.1, q.2)).Perm (circleSub cx cy x y) := by
  have left : ∀ z, 2 * cx - (cx + z) = cx - z := fun z => by ring
  have right : ∀ z, 2 * cx - (cx - z) = cx + z := fun z => by ring
  have mid : 2 * cx - cx = cx := by ring
  unfold circleSub
  split_ifs <;> simp only [List.map_cons, List.map_nil, left, right, mid]
  · exact ((perm_swap_cons _ _ .nil).cons _).cons _
  · exact perm_swap_cons _ _ (perm_swap_cons _ _ .nil)
  · exact perm_swap_cons _ _ (perm_swap_cons _ _ (perm_swap_cons _ _ (perm_swap_cons _ _ .nil)))
  · exact .nil

/-- CircleSub is symmetric in y = cy: it plots two points above the centre and then the two below them. -/
theorem circleSub_reflectY (cx cy x y : Int) :
    ((circleSub cx cy x y).map fun q : Int × Int => (q.1, 2 * cy - q.2)).Perm (circleSub cx cy x y) := by
  have above : ∀ z, 2 * cy - (cy + z) = cy - z := fun z => by ring
  have below : ∀ z, 2 * cy - (cy - z) = cy + z := fun z => by ring
  have mid : 2 * cy - cy = cy := by ring
  have swapTwo : ∀ (a b c d : Int × Int) {l l' : List (Int × Int)}, l.Perm l' →
      (c :: d :: a :: b :: l).Perm (a :: b :: c :: d :: l') := fun a b c d l l' h =>
    (List.perm_append_comm (l₁ := [c, d]) (l₂ := [a, b])).append h
  unfold circleSub
  split_ifs <;> simp only [List.map_cons, List.map_nil, above, below, mid]
  · exact perm_swap_cons _ _ (List.Perm.refl _)
  · exact swapTwo _ _ _ _ .nil
  · exact swapTwo _ _ _ _ (swapTwo _ _ _ _ .nil)
  · exact .nil

/-! ## The offsets of the octant -/

/-- The offsets that the loop of R190 visits after (x, y). -/
def octantSteps : Nat → (x y p : Int) → List (Int × Int)
  | 0, _, _, _ => []
  | n + 1, x, y, p =>
    if x < y then
      if p < 0 then (x + 1, y) :: octantSteps n (x + 1) y (p + 2 * (x + 1) + 1)
      else (x + 1, y - 1) :: octantSteps n (x + 1) (y - 1) (p + 2 * ((x + 1) - (y - 1)) + 1)
    else []

/-- The offsets of a circle, from the top of the octant. -/
def octant (r : Int) : List (Int × Int) := (0, r) :: octantSteps r.toNat 0 r ((5 - 4 * r).tdiv 4)

theorem circleSteps_eq (n : Nat) (cx cy x y p : Int) :
    circleSteps n cx cy x y p = (octantSteps n x y p).flatMap fun o : Int × Int => circleSub cx cy o.1 o.2 := by
  induction n generalizing x y p with
  | zero => rfl
  | succ n ih =>
    simp only [circleSteps, octantSteps]
    split_ifs <;> simp only [List.flatMap_cons, List.flatMap_nil, ih]

theorem circlePoints_eq (cx cy r : Int) :
    circlePoints cx cy r = (octant r).flatMap fun o : Int × Int => circleSub cx cy o.1 o.2 := by
  rw [circlePoints, octant, List.flatMap_cons, circleSteps_eq]

/-- Round by round x rises by one, and no y is negative. -/
theorem octantSteps_increasing (n : Nat) {x y : Int} (p : Int) (hx : 0 ≤ x) :
    (octantSteps n x y p).Pairwise (fun o o' => o.1 < o'.1) ∧ ∀ o ∈ octantSteps n x y p, x < o.1 ∧ 0 ≤ o.2 := by
  induction n generalizing x y p with
  | zero => exact ⟨List.Pairwise.nil, fun _ h => absurd h List.not_mem_nil⟩
  | succ n ih =>
    rw [octantSteps]
    have further : ∀ {y' p'}, 0 ≤ y' →
        ((x + 1, y') :: octantSteps n (x + 1) y' p').Pairwise (fun o o' => o.1 < o'.1) ∧
          ∀ o ∈ (x + 1, y') :: octantSteps n (x + 1) y' p', x < o.1 ∧ 0 ≤ o.2 := fun {y' p'} hy' => by
      obtain ⟨hpairs, hall⟩ := ih (x := x + 1) (y := y') p' (by omega)
      refine ⟨List.pairwise_cons.mpr ⟨fun o ho => (hall o ho).1, hpairs⟩, fun o ho => ?_⟩
      rcases List.mem_cons.mp ho with rfl | ho
      · exact ⟨by dsimp only; omega, hy'⟩
      · exact ⟨by have := (hall o ho).1; omega, (hall o ho).2⟩
    split_ifs with hxy hp
    · exact further (by omega)
    · exact further (by omega)
    · exact ⟨List.Pairwise.nil, fun _ h => absurd h List.not_mem_nil⟩

/-! ## Which offsets the decision variable keeps -/

/-- The offset (a, b) is the one that R190's decision variable keeps in column a of the octant. -/
def keptOffset (r a b : Int) : Prop := a * a + b * b - b + 1 < r * r ∧ r * r ≤ a * a + b * b + b + 1

/-- A column further right keeps no higher offset. -/
theorem keptOffset_antitone {r x y a b : Int} (h : keptOffset r x y) (h' : keptOffset r a b) (hx : 0 ≤ x) (hxa : x ≤ a)
    (hy : 0 ≤ y) : b ≤ y := by
  by_contra hby
  have columnsMono : x * x ≤ a * a := mul_le_mul hxa hxa hx (by omega)
  have rowsMono : (y + 1) * y ≤ b * (b - 1) := mul_le_mul (by omega) (by omega) hy (by omega)
  obtain ⟨-, hupper⟩ := h
  obtain ⟨hlower, -⟩ := h'
  nlinarith

/-- The decision variable of R190 at (x, y): whether the next column keeps y. -/
def decision (r x y : Int) : Int := (x + 1) * (x + 1) + y * y - y - r * r + 1

/-- One round keeps the right offset, unless it leaves the octant. -/
theorem keptOffset_round {r x y : Int} (h : keptOffset r x y) (hx : 0 ≤ x) :
    (decision r x y < 0 → keptOffset r (x + 1) y) ∧ (0 ≤ decision r x y → x + 1 ≤ y - 1 → keptOffset r (x + 1) (y - 1)) := by
  obtain ⟨hlower, hupper⟩ := h
  unfold decision keptOffset
  refine ⟨fun hp => ⟨by omega, by nlinarith⟩, fun hp hin => ⟨by nlinarith, by nlinarith⟩⟩

/-- No kept offset of the octant stands in a column after the loop's last. -/
theorem keptOffset_end {r x y a b : Int} (hkept : keptOffset r x y) (hx : 0 ≤ x) (hy : 0 ≤ y) (hxy : ¬ x < y) (hab : a ≤ b)
    (hxa : x < a) : ¬ keptOffset r a b := by
  intro h
  have := keptOffset_antitone hkept h hx hxa.le hy
  omega

theorem octantSteps_end (n : Nat) {x y p : Int} (hxy : ¬ x < y) : octantSteps n x y p = [] := by
  cases n with
  | zero => rfl
  | succ n => rw [octantSteps, if_neg hxy]

theorem mem_octantSteps {r : Int} (n : Nat) {x y : Int} (hkept : keptOffset r x y) (hx : 0 ≤ x) (hy : 0 ≤ y)
    (hn : (y - x).toNat ≤ n) {a b : Int} (hab : a ≤ b) :
    (a, b) ∈ octantSteps n x y (decision r x y) ↔ x < a ∧ keptOffset r a b := by
  have atEnd : ∀ {m : Nat} {x y p : Int}, keptOffset r x y → 0 ≤ x → 0 ≤ y → ¬ x < y →
      ((a, b) ∈ octantSteps m x y p ↔ x < a ∧ keptOffset r a b) := fun h hx hy hxy => by
    rw [octantSteps_end _ hxy]
    exact iff_of_false List.not_mem_nil fun ⟨hxa, h'⟩ => keptOffset_end h hx hy hxy hab hxa h'
  induction n generalizing x y with
  | zero => exact atEnd hkept hx hy (by omega)
  | succ n ih =>
    rw [octantSteps]
    have further : ∀ {y' : Int}, keptOffset r (x + 1) y' → 0 ≤ y' → (y' - (x + 1)).toNat ≤ n →
        ((a, b) ∈ (x + 1, y') :: octantSteps n (x + 1) y' (decision r (x + 1) y') ↔ x < a ∧ keptOffset r a b) :=
        fun {y'} hk hy' hn' => by
      refine (List.mem_cons.trans (or_congr_right (ih hk (by omega) hy' hn'))).trans ?_
      rw [Prod.mk.injEq]
      constructor
      · rintro (⟨rfl, rfl⟩ | ⟨hlt, h⟩)
        · exact ⟨by omega, hk⟩
        · exact ⟨by omega, h⟩
      · rintro ⟨hxa, h⟩
        rcases eq_or_lt_of_le (show x + 1 ≤ a by omega) with rfl | hlt
        · exact .inl ⟨rfl, le_antisymm (keptOffset_antitone hk h (by omega) le_rfl hy')
            (keptOffset_antitone h hk (by omega) le_rfl (by omega))⟩
        · exact .inr ⟨hlt, h⟩
    obtain ⟨stay, fall⟩ := keptOffset_round hkept hx
    split_ifs with hxy hp
    · have next : decision r x y + 2 * (x + 1) + 1 = decision r (x + 1) y := by unfold decision; ring
      rw [next]
      exact further (stay hp) hy (by omega)
    · have next : decision r x y + 2 * ((x + 1) - (y - 1)) + 1 = decision r (x + 1) (y - 1) := by unfold decision; ring
      rw [next]
      by_cases hin : x + 1 ≤ y - 1
      · exact further (fall (by omega) hin) (by omega) (by omega)
      · rw [octantSteps_end _ (by omega), List.mem_singleton, Prod.mk.injEq]
        refine iff_of_false (by omega) fun ⟨hxa, h⟩ => ?_
        have hby := keptOffset_antitone hkept h hx hxa.le hy
        obtain ⟨rfl, rfl⟩ : a = x + 1 ∧ b = y := by omega
        obtain ⟨hlower, -⟩ := h
        unfold decision at hp
        omega
    · rw [← octantSteps_end (n + 1) hxy (p := decision r x y)]
      exact atEnd hkept hx hy hxy

/-! ## The circle -/

theorem keptOffset_top {r : Int} (hr : 2 ≤ r) : keptOffset r 0 r := ⟨by omega, by omega⟩

theorem decision_top {r : Int} (hr : 2 ≤ r) : (5 - 4 * r).tdiv 4 = decision r 0 r := by
  have hdiv : (5 - 4 * r).tdiv 4 = 2 - r := by
    rw [show 5 - 4 * r = -(4 * r - 5) by ring, Int.neg_tdiv, Int.tdiv_eq_ediv_of_nonneg (by omega)]
    omega
  rw [hdiv, decision]
  ring

theorem mem_octant {r : Int} (hr : 2 ≤ r) {a b : Int} (ha : 0 ≤ a) (hab : a ≤ b) : (a, b) ∈ octant r ↔ keptOffset r a b := by
  have htop := keptOffset_top hr
  rw [octant, List.mem_cons, decision_top hr, mem_octantSteps _ htop le_rfl (by omega) (by omega) hab, Prod.mk.injEq]
  constructor
  · rintro (⟨rfl, rfl⟩ | ⟨-, h⟩)
    · exact htop
    · exact h
  · intro h
    rcases eq_or_lt_of_le ha with rfl | hpos
    · exact .inl ⟨rfl, le_antisymm (keptOffset_antitone htop h le_rfl le_rfl (by omega))
        (keptOffset_antitone h htop le_rfl le_rfl (by omega))⟩
    · exact .inr ⟨hpos, h⟩

theorem octant_cases {r : Int} {o : Int × Int} (ho : o ∈ octant r) : o = (0, r) ∨ 0 < o.1 ∧ 0 ≤ o.2 := by
  obtain ⟨-, hall⟩ := octantSteps_increasing r.toNat (y := r) ((5 - 4 * r).tdiv 4) le_rfl
  exact (List.mem_cons.mp ho).imp_right (hall o)

theorem octant_nonneg {r : Int} (hr : 0 < r) {o : Int × Int} (ho : o ∈ octant r) :
    0 ≤ o.1 ∧ 0 ≤ o.2 ∧ (0 < o.1 ∨ 0 < o.2) := by
  rcases octant_cases ho with rfl | ⟨ha, hb⟩
  · exact ⟨le_rfl, hr.le, .inr hr⟩
  · exact ⟨ha.le, hb, .inl ha⟩

theorem pairwise_octant (r : Int) : (octant r).Pairwise fun o o' => o.1 < o'.1 := by
  obtain ⟨hpairs, hall⟩ := octantSteps_increasing r.toNat (y := r) ((5 - 4 * r).tdiv 4) le_rfl
  exact List.pairwise_cons.mpr ⟨fun o ho => (hall o ho).1, hpairs⟩

theorem mem_circlePoints {cx cy r : Int} (hr : 2 ≤ r) {q : Int × Int} : q ∈ circlePoints cx cy r ↔
    keptOffset r (min ((q.1 - cx).natAbs : Int) (q.2 - cy).natAbs) (max ((q.1 - cx).natAbs : Int) (q.2 - cy).natAbs) := by
  rw [circlePoints_eq, List.mem_flatMap, ← mem_octant hr (by omega) (by omega)]
  constructor
  · rintro ⟨⟨a, b⟩, ho, hq⟩
    obtain ⟨ha, hb, -⟩ := octant_nonneg (by omega) ho
    obtain ⟨-, rfl, rfl⟩ := (mem_circleSub ha hb).mp hq
    exact ho
  · intro ho
    exact ⟨_, ho, (mem_circleSub (by omega) (by omega)).mpr ⟨by omega, rfl, rfl⟩⟩

theorem nodup_circlePoints {cx cy r : Int} (hr : 2 ≤ r) : (circlePoints cx cy r).Nodup := by
  rw [circlePoints_eq]
  have nonneg := fun o => octant_nonneg (show 0 < r by omega) (o := o)
  refine List.nodup_flatMap.mpr ⟨fun o ho => ?_, List.Pairwise.imp_of_mem ?_ (pairwise_octant r)⟩
  · obtain ⟨ha, -, hne⟩ := nonneg o ho
    exact nodup_circleSub ha hne
  · intro o o' ho ho' hlt q hq hq'
    obtain ⟨ha, hb, -⟩ := nonneg o ho
    obtain ⟨ha', hb', -⟩ := nonneg o' ho'
    obtain ⟨-, hmin, -⟩ := (mem_circleSub ha hb).mp hq
    obtain ⟨-, hmin', -⟩ := (mem_circleSub ha' hb').mp hq'
    omega

/-- A radius of at most 1 plots the four axis points, and the loop nothing. -/
theorem circlePoints_small (cx cy : Int) {r : Int} (hr : r ≤ 1) :
    circlePoints cx cy r = [(cx, cy + r), (cx, cy - r), (cx + r, cy), (cx - r, cy)] := by
  rcases eq_or_lt_of_le hr with rfl | hlt
  · simp [circlePoints, circleSub, circleSteps]
  · rw [circlePoints, Int.toNat_of_nonpos (by omega), circleSteps, List.append_nil, circleSub, if_pos rfl]

theorem circlePoints_bounds {cx cy r : Int} {q : Int × Int} (hq : q ∈ circlePoints cx cy r) :
    (q.1 - cx).natAbs ≤ r.natAbs ∧ (q.2 - cy).natAbs ≤ r.natAbs := by
  rcases le_or_gt r 1 with hr | hr
  · rw [circlePoints_small cx cy hr] at hq
    simp only [List.mem_cons, List.not_mem_nil, or_false] at hq
    rcases hq with rfl | rfl | rfl | rfl <;> dsimp only <;> omega
  · have hmax : max ((q.1 - cx).natAbs : Int) (q.2 - cy).natAbs ≤ r :=
      keptOffset_antitone (keptOffset_top hr) ((mem_circlePoints hr).mp hq) le_rfl (by omega) (by omega)
    omega

/-- A symmetry of CircleSub is one of the circle, plot for plot. -/
theorem count_circlePoints {cx cy r : Int} {f : Int × Int → Int × Int} (hf : Function.Injective f)
    (hsym : ∀ x y, ((circleSub cx cy x y).map f).Perm (circleSub cx cy x y)) (q : Int × Int) :
    (circlePoints cx cy r).count (f q) = (circlePoints cx cy r).count q := by
  have hperm : ((circlePoints cx cy r).map f).Perm (circlePoints cx cy r) := by
    rw [circlePoints_eq, List.map_flatMap]
    exact List.Perm.flatMap_left _ fun o _ => hsym o.1 o.2
  rw [← hperm.count_eq, List.count_map_of_injective _ _ hf]

/-- Settles O34. -/
theorem circleShape : Obligations.CircleShape := by
  intro cx cy r
  have axis : ∀ q, q ∈ [(cx, cy + r), (cx, cy - r), (cx + r, cy), (cx - r, cy)] → q ∈ circlePoints cx cy r := fun q hq =>
    List.mem_append_left _ (by rwa [circleSub, if_pos rfl])
  refine ⟨fun hr => ⟨nodup_circlePoints hr, fun x y => mem_circlePoints hr⟩, circlePoints_small cx cy, fun x y => ⟨?_, ?_⟩,
    fun q hq => circlePoints_bounds hq, axis _ (by simp), axis _ (by simp), axis _ (by simp), axis _ (by simp)⟩
  · refine count_circlePoints (f := fun q => (2 * cx - q.1, q.2)) (fun q q' h => ?_) (circleSub_reflectX cx cy) (x, y)
    simpa [Prod.ext_iff] using h
  · refine count_circlePoints (f := fun q => (q.1, 2 * cy - q.2)) (fun q q' h => ?_) (circleSub_reflectY cx cy) (x, y)
    simpa [Prod.ext_iff] using h

end Sys2Proof.Machine
end

section
/-! Font reads past FONT_ROM (R70, R284): for each font command, what it answers `none` for is what `fontReadsFail` says. -/

namespace Sys2Proof.Machine

/-! ## Reads of the font resource -/

theorem fontRead_eq_none {s : State} {off : Nat} : fontRead s off = none ↔ s.cfg.fontRomSize ≤ s.fontBase.toNat + off :=
  List.getElem?_eq_none_iff

/-- What can be read at an offset can be read at every smaller one. -/
theorem fontRead_of_le {s : State} {off off' : Nat} {b : Byte} (h : fontRead s off = some b) (hle : off' ≤ off) :
    ∃ b', fontRead s off' = some b' := by
  refine Option.ne_none_iff_exists'.mp fun hnone => ?_
  rw [fontRead_eq_none.mpr ((fontRead_eq_none.mp hnone).trans (by omega))] at h
  cases h

theorem gather_eq_none {α β : Type} {f : α → Option (List β)} {as : List α} :
    gather f as = none ↔ ∃ a ∈ as, f a = none := by
  rw [← Option.not_isSome_iff_eq_none, gather_isSome]
  simp

theorem fontHeight_eq_none {s : State} : fontHeight s = none ↔ fontRead s 3 = none := Option.map_eq_none_iff

/-- What is made of a read fails with the read alone. -/
@[simp] theorem bind_some_eq_none {α β : Type} {r : Option α} {f : α → β} :
    (r.bind fun a => some (f a)) = none ↔ r = none := by
  cases r <;> simp

theorem glyphOps_eq_none {s : State} {x y : Int} {mode : Mode} {h w off : Nat} : glyphOps s x y mode h w off = none ↔
    ∃ j < w, ∃ i < bytesPerColumn h,
      fontRead s (glyphByteOffset s.cfg.glyphLayout off w (bytesPerColumn h) j i) = none := by
  simp [-Option.bind_eq_none_iff, glyphOps, gather_eq_none]

/-! ## DRAW_CHAR and CHAR_WIDTH -/

/-- DrawChar fails when it draws on the grid and one of its reads fails (R150, R284). -/
theorem drawChar_eq_none {s : State} {x y : Int} {c : Byte} {mode : Mode} :
    drawChar s x y c mode = none ↔ beforeEdges s.cfg x y ∧ glyphReadsFail s c := by
  by_cases hon : beforeEdges s.cfg x y
  · simp only [hon, true_and]
    by_cases hc : c = spaceChar
    · subst hc
      rw [drawChar_space hon, glyphReadsFail, if_pos rfl]
      cases charWidth s spaceChar <;> simp
    · rw [glyphReadsFail, if_neg hc]
      rcases hg : glyphIndex s c with _ | _ | gi
      · simp [drawChar_of_unread hon hc hg]
      · simp [drawChar_of_unrenderable hon hc hg]
      · rw [drawChar_of_renderable hon hc hg]
        rcases hw : glyphWidth s gi with _ | w
        · simp [hw]
        · rcases hh : fontHeight s with _ | h
          · simp
          · rcases hoff : glyphOffset s gi (bytesPerColumn h) with _ | off <;> simp [hw, hoff, glyphOps_eq_none]
  · rw [drawChar_off hon]
    simp [hon]

theorem glyphIndex_eq_none {s : State} {c : Byte} : glyphIndex s c = none ↔ fontRead s 5 = none := by
  constructor
  · intro h
    by_contra hsome
    obtain ⟨count, h5⟩ := Option.ne_none_iff_exists'.mp hsome
    obtain ⟨first, h4⟩ := fontRead_of_le h5 (show 4 ≤ 5 by omega)
    rw [glyphIndex_eq_some h4 h5] at h
    cases h
  · intro h
    cases hf : fontRead s 4 <;> simp [glyphIndex, h, hf]

/-- The reads of CHAR_WIDTH written out (R143 to R145): the header, and the width byte of a renderable code point. -/
theorem charWidth_eq_none (s : State) (ch : Byte) : charWidth s ch = none ↔
    s.cfg.fontRomSize ≤ s.fontBase.toNat + 5 ∨
      ∃ l0 l1 first count, fontRead s 0 = some l0 ∧ fontRead s 1 = some l1 ∧ fontRead s 4 = some first ∧
        fontRead s 5 = some count ∧ first.toNat ≤ (if ch = 0x20#8 then 0x6E#8 else ch).toNat ∧
        (if ch = 0x20#8 then 0x6E#8 else ch).toNat < first.toNat + count.toNat ∧ ¬ (l0 = 0#8 ∧ l1 = 0#8) ∧
        s.cfg.fontRomSize ≤ s.fontBase.toNat + (6 + ((if ch = 0x20#8 then 0x6E#8 else ch).toNat - first.toNat)) := by
  have counted : (if ch = 0x20#8 then 0x6E#8 else ch) = if ch = spaceChar then charN else ch := rfl
  rw [counted, ← fontRead_eq_none]
  rcases h5 : fontRead s 5 with _ | count
  · simp [charWidth_of_unread (glyphIndex_eq_none.mpr h5)]
  · obtain ⟨l0, h0⟩ := fontRead_of_le h5 (show 0 ≤ 5 by omega)
    obtain ⟨l1, h1⟩ := fontRead_of_le h5 (show 1 ≤ 5 by omega)
    obtain ⟨width, h2⟩ := fontRead_of_le h5 (show 2 ≤ 5 by omega)
    obtain ⟨first, h4⟩ := fontRead_of_le h5 (show 4 ≤ 5 by omega)
    have hg := glyphIndex_eq_some h4 h5 (if ch = spaceChar then charN else ch)
    have hfixed := fontFixed_eq_some h0 h1
    simp only [h0, h1, h4, ← fontRead_eq_none, Option.some.injEq, reduceCtorEq, false_or]
    by_cases hin : first.toNat ≤ (if ch = spaceChar then charN else ch).toNat ∧
        (if ch = spaceChar then charN else ch).toNat < first.toNat + count.toNat
    · rw [if_pos hin] at hg
      rw [charWidth_of_renderable hg]
      by_cases hzero : l0 = 0#8 ∧ l1 = 0#8
      · rw [glyphWidth_of_fixed (by rw [hfixed, decide_eq_true hzero]), h2]
        simp [hzero]
      · rw [glyphWidth_of_proportional (by rw [hfixed, decide_eq_false hzero]), Option.map_eq_none_iff]
        simp [hzero, hin]
    · rw [if_neg hin] at hg
      rw [charWidth_of_unrenderable hg]
      refine iff_of_false nofun fun ⟨_, _, _, _, _, _, hfirst, hcount, hlow, hhigh, _⟩ => hin ?_
      obtain rfl := hfirst
      obtain rfl := hcount
      exact ⟨hlow, hhigh⟩

/-! ## DRAW_STRING -/

/-- An element of a list, and those before it. -/
theorem exists_getElem?_cons {P : List Byte → Byte → Prop} {c : Byte} {cs : List Byte} :
    (∃ k d, (c :: cs)[k]? = some d ∧ P ((c :: cs).take k) d) ↔ P [] c ∨ ∃ k d, cs[k]? = some d ∧ P (c :: cs.take k) d := by
  constructor
  · rintro ⟨_ | k, d, hd, hP⟩
    · obtain rfl := Option.some.inj hd
      exact .inl hP
    · exact .inr ⟨k, d, hd, hP⟩
  · rintro (hP | ⟨k, d, hd, hP⟩)
    · exact ⟨0, c, rfl, hP⟩
    · exact ⟨k + 1, d, hd, hP⟩

@[simp] theorem stringAdvance_nil (s : State) : stringAdvance s [] = 0 := rfl

/-- The loop of DrawString fails when a read of a glyph fails that starts on the grid (R171). -/
theorem stringLoop_eq_none {s : State} {x y h : Int} {mode : Mode} (hy : y < s.cfg.gridHeight) {cs : List Byte} {sw : Int}
    (hx : x + sw < s.cfg.gridWidth) : stringLoop s x y h mode sw cs = none ↔
      ∃ k c, cs[k]? = some c ∧ x + sw + stringAdvance s (cs.take k) < s.cfg.gridWidth ∧ glyphReadsFail s c := by
  induction cs generalizing sw with
  | nil => simp [stringLoop]
  | cons c cs ih =>
    rw [exists_getElem?_cons (P := fun before d => x + sw + stringAdvance s before < s.cfg.gridWidth ∧ glyphReadsFail s d)]
    rcases hd : drawChar s (x + sw) y c mode with _ | ⟨w, glyph⟩
    · rw [stringLoop_unread hd]
      exact iff_of_true rfl (.inl ⟨by simpa using hx, (drawChar_eq_none.mp hd).2⟩)
    · have hreads : ¬ glyphReadsFail s c := fun hfail => by
        rw [drawChar_eq_none.mpr ⟨⟨hx, hy⟩, hfail⟩] at hd
        cases hd
      obtain ⟨n, hwidth, rfl⟩ := drawChar_width ⟨hx, hy⟩ hd
      simp only [hreads, and_false, false_or]
      rcases Nat.eq_zero_or_pos n with rfl | hpos
      · rw [stringLoop_zero ⟨hx, hy⟩ hd, ih hx]
        simp only [stringAdvance_cons_zero _ hwidth]
      · rw [stringLoop_pos hy hpos hd]
        simp only [stringAdvance_cons_pos _ hwidth hpos]
        split_ifs with hleft
        · refine iff_of_false nofun fun ⟨k, d, _, hlt, _⟩ => ?_
          push_cast at hlt
          omega
        · rw [Option.map_eq_none_iff, ih (by omega)]
          push_cast
          simp only [add_assoc]

theorem drawString_eq_none {s : State} {x y : Int} {chars : List Byte} {mode : Mode} :
    drawString s x y chars mode = none ↔ stringReadsFail s x y chars := by
  unfold stringReadsFail
  by_cases hon : beforeEdges s.cfg x y
  · obtain ⟨hx, hy⟩ := hon
    simp only [hx, hy, true_and]
    rcases hh : fontHeight s with _ | h
    · simp [drawString_unread ⟨hx, hy⟩ hh]
    · simp only [reduceCtorEq, false_or, Option.some.injEq, exists_eq_left']
      by_cases hin : 0 ≤ y + (h : Int)
      · rw [drawString_on ⟨hx, hy⟩ hh hin, Option.map_eq_none_iff, stringLoop_eq_none hy (by simpa using hx)]
        simp [hin]
      · rw [drawString_above hh (by omega)]
        simp [hin]
  · rw [drawString_off hon]
    exact iff_of_false nofun fun ⟨hx, hy, _⟩ => hon ⟨hx, hy⟩

/-! ## The fast shifts (R208) -/

@[simp] theorem stringColumn_zero (s : State) (cs : List Byte) : stringColumn s cs 0 = 0 := rfl

theorem stringColumn_succ {s : State} {c : Byte} {w : Nat} (hw : charWidth s c = some w) (cs : List Byte) (k : Nat) :
    stringColumn s (c :: cs) (k + 1) = w + 1 + stringColumn s cs k := by
  simp [stringColumn, hw]

theorem add_stringColumn_succ {s : State} {c : Byte} {w : Nat} (hw : charWidth s c = some w) (ox : Int) (cs : List Byte)
    (k : Nat) : ox + stringColumn s (c :: cs) (k + 1) = ox + w + 1 + stringColumn s cs k := by
  rw [stringColumn_succ hw]
  ring

theorem drawEntering_nil (s : State) (reaches : Int → Bool) (ox oy : Int) : drawEntering s reaches ox oy [] = some [] := rfl

theorem drawEntering_unread {s : State} {c : Byte} (hw : charWidth s c = none) (reaches : Int → Bool) (ox oy : Int)
    (cs : List Byte) : drawEntering s reaches ox oy (c :: cs) = none := by
  simp [drawEntering, enteringGlyph, hw]

/-- The glyph whose right end reaches the edge is drawn. -/
theorem drawEntering_reaches {s : State} {c : Byte} {w : Nat} (hw : charWidth s c = some w) {reaches : Int → Bool} {ox : Int}
    (hr : reaches (ox + w) = true) (oy : Int) (cs : List Byte) :
    drawEntering s reaches ox oy (c :: cs) = (drawChar s ox oy c .normal).map Prod.snd := by
  simp [drawEntering, enteringGlyph, hw, hr]

/-- A glyph that ends before the edge takes its width and a separator. -/
theorem drawEntering_short {s : State} {c : Byte} {w : Nat} (hw : charWidth s c = some w) {reaches : Int → Bool} {ox : Int}
    (hr : reaches (ox + w) = false) (oy : Int) (cs : List Byte) :
    drawEntering s reaches ox oy (c :: cs) = drawEntering s reaches (ox + w + 1) oy cs := by
  simp [drawEntering, enteringGlyph, hw, hr]

/-- No glyph before number `k` reaches the edge. -/
def shortBefore (s : State) (reaches : Int → Bool) (ox : Int) (cs : List Byte) (k : Nat) : Prop :=
  ∀ j < k, ∀ d w, cs[j]? = some d → charWidth s d = some w → reaches (ox + stringColumn s cs j + w) = false

theorem shortBefore_zero (s : State) (reaches : Int → Bool) (ox : Int) (cs : List Byte) : shortBefore s reaches ox cs 0 :=
  fun _ hj => absurd hj (Nat.not_lt_zero _)

theorem shortBefore_succ {s : State} {c : Byte} {w : Nat} (hw : charWidth s c = some w) {reaches : Int → Bool} {ox : Int}
    {cs : List Byte} {k : Nat} : shortBefore s reaches ox (c :: cs) (k + 1) ↔
      reaches (ox + w) = false ∧ shortBefore s reaches (ox + w + 1) cs k := by
  have column := add_stringColumn_succ hw ox cs
  constructor
  · intro h
    refine ⟨by simpa using h 0 (Nat.succ_pos k) c w rfl hw, fun j hj d v hd hv => ?_⟩
    rw [← column]
    exact h (j + 1) (Nat.succ_lt_succ hj) d v hd hv
  · rintro ⟨hr, h⟩ (_ | j) hj d v hd hv
    · obtain rfl := Option.some.inj hd
      obtain rfl := Option.some.inj (hw.symm.trans hv)
      simpa using hr
    · rw [column]
      exact h j (Nat.lt_of_succ_lt_succ hj) d v hd hv

/-- The entering glyph fails when a width up to it, or a read of it on the grid, fails. -/
theorem drawEntering_eq_none {s : State} {reaches : Int → Bool} {ox oy : Int} {cs : List Byte} :
    drawEntering s reaches ox oy cs = none ↔ shiftReadsFail s reaches ox oy cs := by
  induction cs generalizing ox with
  | nil => exact iff_of_false nofun fun ⟨k, c, hc, _⟩ => by simp at hc
  | cons c cs ih =>
    rcases hw : charWidth s c with _ | w
    · exact iff_of_true (drawEntering_unread hw ..) ⟨0, c, rfl, shortBefore_zero s reaches ox (c :: cs), .inl hw⟩
    · cases hr : reaches (ox + w)
      · rw [drawEntering_short hw hr, ih]
        constructor
        · rintro ⟨k, d, hd, hshort, hfail⟩
          refine ⟨k + 1, d, hd, (shortBefore_succ hw).mpr ⟨hr, hshort⟩, ?_⟩
          rw [add_stringColumn_succ hw]
          exact hfail
        · rintro ⟨_ | k, d, hd, hshort, hfail⟩
          · obtain rfl := Option.some.inj hd
            obtain hnone | ⟨v, hv, hreach, -⟩ := hfail
            · cases hw.symm.trans hnone
            · obtain rfl := Option.some.inj (hw.symm.trans hv)
              simp [hr] at hreach
          · obtain ⟨-, hshort⟩ := (shortBefore_succ hw).mp hshort
            rw [add_stringColumn_succ hw] at hfail
            exact ⟨k, d, hd, hshort, hfail⟩
      · rw [drawEntering_reaches hw hr, Option.map_eq_none_iff, drawChar_eq_none]
        constructor
        · rintro ⟨⟨hx, hy⟩, hfail⟩
          exact ⟨0, c, rfl, shortBefore_zero s reaches ox (c :: cs),
            .inr ⟨w, hw, by simpa using hr, by simpa using hx, hy, hfail⟩⟩
        · rintro ⟨_ | k, d, hd, hshort, hfail⟩
          · obtain rfl := Option.some.inj hd
            obtain hnone | ⟨-, -, -, hx, hy, hfail⟩ := hfail
            · cases hw.symm.trans hnone
            · exact ⟨⟨by simpa using hx, hy⟩, hfail⟩
          · obtain ⟨hshort, -⟩ := (shortBefore_succ hw).mp hshort
            cases hr.symm.trans hshort

/-! ## The marquee commands -/

theorem marqueeWidth_eq_none {s : State} {cs : List Byte} : marqueeWidth s cs = none ↔ ∃ c ∈ cs, charWidth s c = none := by
  induction cs with
  | nil => simp [marqueeWidth]
  | cons c cs ih =>
    rw [List.exists_mem_cons_iff, ← ih]
    cases hw : charWidth s c <;> simp [-Option.bind_eq_none_iff, marqueeWidth, hw]

theorem startMarqueeOps_eq_none {s : State} {len : Byte} :
    startMarqueeOps s len = none ↔ fontReadsFail (.drawMarquee len) s := by
  unfold fontReadsFail
  dsimp only
  rw [← marqueeWidth_eq_none, fontHeight_eq_none, ← drawString_eq_none (mode := .normal), startMarqueeOps]
  cases marqueeWidth s (textPrefix s len.toNat) <;> cases fontRead s 3 <;>
    simp [-Option.bind_eq_none_iff, argInt, argBits]

/-- One axis of R206 as the spec writes it. -/
theorem wrapAxis_eq (offset extent limit : Int) : wrapAxis offset extent limit =
    (wrapped offset extent limit, decide (offset < -extent ∨ offset > limit)) := by
  unfold wrapAxis wrapped
  split_ifs <;> simp [*]

theorem stepMarqueeOps_eq (s : State) : stepMarqueeOps s =
    let ox := wrapped (s.mqOX + s.a0.toInt) s.mqWidth s.cfg.gridWidth
    let oy := wrapped (s.mqOY + s.a1.toInt) s.mqHeight.toNat s.cfg.gridHeight
    let wrapsX := s.mqOX + s.a0.toInt < -(s.mqWidth : Int) ∨ s.mqOX + s.a0.toInt > s.cfg.gridWidth
    let wrapsY := s.mqOY + s.a1.toInt < -(s.mqHeight.toNat : Int) ∨ s.mqOY + s.a1.toInt > s.cfg.gridHeight
    (marqueeRedraw s s.a0.toInt s.a1.toInt ox oy).map fun redraw =>
      .moveMarquee ox oy :: ((if wrapsX then clearOps s.cfg true else []) ++ (if wrapsY then clearOps s.cfg true else []) ++
        redraw ++ [.setResult (if wrapsX ∨ wrapsY then 1#32 else 0#32)]) := by
  simp only [stepMarqueeOps, wrapAxis_eq, argInt, argBits, Option.bind_eq_bind, Option.pure_def, Option.map_eq_bind,
    decide_eq_true_eq, Bool.or_eq_true, Function.comp_def]

theorem stepMarqueeOps_eq_none {s : State} : stepMarqueeOps s = none ↔ fontReadsFail .stepMarquee s := by
  rw [stepMarqueeOps_eq, fontReadsFail]
  simp only [Option.map_eq_none_iff, marqueeRedraw, shiftLeftOps, shiftRightOps, ← drawEntering_eq_none,
    ← drawString_eq_none (mode := .normal)]
  split_ifs <;> simp [-Option.bind_eq_none_iff]

/-! ## FONT_RANGE -/

/-- Each font command is issued from the micro-operations it answers, and answers none exactly when a read of it fails. -/
theorem exec_font {i : Instr} (hi : usesFont i = true) (s : State) :
    ∃ f, exec i s = issueFont i f s ∧ (f s = none ↔ fontReadsFail i s) := by
  cases i with
  | charWidth ch => exact ⟨_, exec_charWidth ch s, Option.map_eq_none_iff⟩
  | drawChar mode ch =>
    refine ⟨_, exec_drawChar mode ch s, Option.map_eq_none_iff.trans (drawChar_eq_none.trans ?_)⟩
    rw [beforeEdges, and_assoc]
    rfl
  | drawString mode len => exact ⟨_, exec_drawString mode len s, drawString_eq_none⟩
  | drawMarquee len => exact ⟨_, exec_drawMarquee len s, startMarqueeOps_eq_none⟩
  | stepMarquee => exact ⟨_, exec_stepMarquee s, stepMarqueeOps_eq_none⟩
  | _ => cases hi

/-- Issued when no read fails (R284). -/
theorem exec_of_fontReads {i : Instr} {s : State} (hi : usesFont i = true) (hv : s.fontValid = true)
    (h : ¬ fontReadsFail i s) : ∃ ops, exec i s = .next { s with cur := ops } := by
  obtain ⟨f, hexec, hnone⟩ := exec_font hi s
  obtain ⟨ops, hops⟩ := Option.ne_none_iff_exists'.mp (mt hnone.mp h)
  exact ⟨ops, hexec.trans (issueFont_of_some hv hops)⟩

/-- Settles O23. -/
theorem fontRangeFaults : Obligations.FontRangeFaults := by
  refine ⟨fun s i hi hv hf hc => ⟨fun hfail => ?_, exec_of_fontReads hi hv⟩, charWidth_eq_none⟩
  obtain ⟨f, hexec, hnone⟩ := exec_font hi s
  rw [hexec, issueFont_of_none hv (hnone.mpr hfail), failIssue_first hf hc]
  rfl

end Sys2Proof.Machine
end

section
/-! Fonts that lie inside FONT_ROM (R70, R142, R144) and the strings drawn with them (R171, R172, R339). -/

namespace Sys2Proof.Machine

/-! ## A fitting font -/

/-- What a fitting font has: its header, and bitmaps that end inside FONT_ROM after the widths of all glyphs. -/
theorem fontFits_cases {s : State} (h : fontFits s = true) :
    ∃ width height count, fontRead s 2 = some width ∧ fontRead s 3 = some height ∧ fontRead s 5 = some count ∧
      ((fontFixed s = some true ∧
          s.fontBase.toNat + 6 + count.toNat * bytesPerColumn height.toNat * width.toNat ≤ s.cfg.fontRomSize) ∨
        (fontFixed s = some false ∧ ∃ total, widthSum s count.toNat = some total ∧
          s.fontBase.toNat + 6 + count.toNat + bytesPerColumn height.toNat * total ≤ s.cfg.fontRomSize)) := by
  unfold fontFits at h
  split at h
  case h_2 => cases h
  case h_1 width height count fixed h2 h3 h5 hfixed =>
    refine ⟨width, height, count, h2, h3, h5, ?_⟩
    cases fixed with
    | true => exact .inl ⟨hfixed, of_decide_eq_true h⟩
    | false =>
      simp only [Bool.false_eq_true, if_false] at h
      cases htotal : widthSum s count.toNat with
      | none => simp [htotal] at h
      | some total =>
        simp only [htotal] at h
        exact .inr ⟨hfixed, total, rfl, of_decide_eq_true h⟩

theorem widthSum_succ {s : State} {n T : Nat} (h : widthSum s (n + 1) = some T) :
    ∃ t w, widthSum s n = some t ∧ fontRead s (6 + n) = some w ∧ T = t + w.toNat := by
  simp only [widthSum, Option.bind_eq_bind, Option.bind_eq_some_iff, Option.pure_def, Option.some.injEq] at h
  obtain ⟨t, ht, w, hw, rfl⟩ := h
  exact ⟨t, w, ht, hw, rfl⟩

/-- A sum of widths has the width of each of its glyphs and the sum before it. -/
theorem widthSum_parts {s : State} {gi n T : Nat} (h : widthSum s n = some T) (hgi : gi < n) :
    ∃ t w, widthSum s gi = some t ∧ fontRead s (6 + gi) = some w ∧ t + w.toNat ≤ T := by
  induction n generalizing T with
  | zero => exact absurd hgi (Nat.not_lt_zero _)
  | succ n ih =>
    obtain ⟨t, w, ht, hw, rfl⟩ := widthSum_succ h
    rcases Nat.eq_or_lt_of_le (Nat.le_of_lt_succ hgi) with rfl | hlt
    · exact ⟨t, w, ht, hw, le_rfl⟩
    · obtain ⟨t', w', ht', hw', hle⟩ := ih ht hlt
      exact ⟨t', w', ht', hw', by omega⟩

/-- Glyph `gi` of the selected font has a width and a bitmap, and its bitmap lies inside FONT_ROM. -/
def glyphFits (s : State) (gi : Nat) : Prop :=
  ∃ w h off, glyphWidth s gi = some w ∧ fontHeight s = some h ∧ glyphOffset s gi (bytesPerColumn h) = some off ∧
    s.fontBase.toNat + off + bytesPerColumn h * w ≤ s.cfg.fontRomSize

theorem glyphFits_of_lt {s : State} (h : fontFits s = true) {count : Byte} (h5 : fontRead s 5 = some count) {gi : Nat}
    (hgi : gi < count.toNat) : glyphFits s gi := by
  obtain ⟨width, height, count', h2, h3, h5', hkind⟩ := fontFits_cases h
  obtain rfl := Option.some.inj (h5.symm.trans h5')
  have hh : fontHeight s = some height.toNat := by rw [fontHeight, h3]; rfl
  rcases hkind with ⟨hfixed, hend⟩ | ⟨hprop, total, htotal, hend⟩
  · refine ⟨width.toNat, height.toNat, _, by rw [glyphWidth_of_fixed hfixed, h2]; rfl, hh,
      glyphOffset_of_fixed hfixed h2 gi _, ?_⟩
    have bitmaps : (gi + 1) * bytesPerColumn height.toNat * width.toNat ≤
        count.toNat * bytesPerColumn height.toNat * width.toNat := Nat.mul_le_mul_right _ (Nat.mul_le_mul_right _ hgi)
    linarith
  · obtain ⟨t, w, ht, hw, hle⟩ := widthSum_parts htotal hgi
    refine ⟨w.toNat, height.toNat, _, by rw [glyphWidth_of_proportional hprop, hw]; rfl, hh,
      glyphOffset_of_proportional hprop h5 ht _, ?_⟩
    have bitmaps : bytesPerColumn height.toNat * (t + w.toNat) ≤ bytesPerColumn height.toNat * total :=
      Nat.mul_le_mul_left _ hle
    linarith

/-- A byte of a glyph's bitmap lies inside it, in either layout (R147). -/
theorem glyphByteOffset_lt (layout : GlyphLayout) {off w bpc j i : Nat} (hj : j < w) (hi : i < bpc) :
    glyphByteOffset layout off w bpc j i < off + bpc * w := by
  cases layout with
  | columnMajor =>
    have column : bpc * (j + 1) ≤ bpc * w := Nat.mul_le_mul_left _ hj
    simp only [glyphByteOffset]
    linarith
  | byteRowMajor =>
    have row : (i + 1) * w ≤ bpc * w := Nat.mul_le_mul_right _ hi
    simp only [glyphByteOffset]
    linarith

/-- Every code point has an index in a fitting font, and the glyph of a renderable one fits. -/
theorem glyphIndex_of_fits {s : State} (h : fontFits s = true) (c : Byte) :
    glyphIndex s c = some none ∨ ∃ gi, glyphIndex s c = some (some gi) ∧ glyphFits s gi := by
  obtain ⟨-, -, count, -, -, h5, -⟩ := fontFits_cases h
  obtain ⟨first, h4⟩ := fontRead_of_le h5 (show 4 ≤ 5 by omega)
  rw [glyphIndex_eq_some h4 h5]
  split_ifs with hin
  · exact .inr ⟨_, rfl, glyphFits_of_lt h h5 (by omega)⟩
  · exact .inl rfl

theorem fontHeight_of_fits {s : State} (h : fontFits s = true) : ∃ n, fontHeight s = some n := by
  obtain ⟨-, height, -, -, h3, -⟩ := fontFits_cases h
  exact ⟨height.toNat, by rw [fontHeight, h3]; rfl⟩

theorem charWidth_of_fits {s : State} (h : fontFits s = true) (c : Byte) : ∃ w, charWidth s c = some w := by
  obtain hnone | ⟨gi, hgi, w, -, -, hw, -⟩ := glyphIndex_of_fits h (if c = spaceChar then charN else c)
  · exact ⟨0, charWidth_of_unrenderable hnone⟩
  · exact ⟨w, (charWidth_of_renderable hgi).trans hw⟩

/-- No read of a glyph fails in a fitting font. -/
theorem not_glyphReadsFail {s : State} (h : fontFits s = true) (c : Byte) : ¬ glyphReadsFail s c := by
  obtain ⟨_, hwidth⟩ := charWidth_of_fits h spaceChar
  obtain ⟨_, hheight⟩ := fontHeight_of_fits h
  unfold glyphReadsFail
  split_ifs with hc
  · simp [hwidth, hheight]
  · obtain hnone | ⟨gi, hgi, w, ht, off, hw, hh, hoff, hend⟩ := glyphIndex_of_fits h c
    · simp [hnone]
    · rintro (hfail | ⟨gi', hgi', hfail⟩)
      · cases hgi.symm.trans hfail
      · obtain rfl := Option.some.inj (Option.some.inj (hgi.symm.trans hgi'))
        simp only [hw, hh, hoff, reduceCtorEq, false_or, Option.some.injEq, exists_and_left, exists_eq_left',
          fontRead_eq_none] at hfail
        obtain ⟨j, hj, i, hi, hpast⟩ := hfail
        have := glyphByteOffset_lt s.cfg.glyphLayout (off := off) hj hi
        omega

theorem not_stringReadsFail {s : State} (h : fontFits s = true) (x y : Int) (chars : List Byte) :
    ¬ stringReadsFail s x y chars := by
  rintro ⟨-, -, hnone | ⟨-, -, -, _, c, -, -, hfail⟩⟩
  · obtain ⟨_, hh⟩ := fontHeight_of_fits h
    cases hh.symm.trans hnone
  · exact not_glyphReadsFail h c hfail

theorem not_shiftReadsFail {s : State} (h : fontFits s = true) (reaches : Int → Bool) (ox oy : Int) (chars : List Byte) :
    ¬ shiftReadsFail s reaches ox oy chars := by
  rintro ⟨_, c, -, -, hnone | ⟨-, -, -, -, -, hfail⟩⟩
  · obtain ⟨_, hw⟩ := charWidth_of_fits h c
    cases hw.symm.trans hnone
  · exact not_glyphReadsFail h c hfail

theorem drawChar_of_fits {s : State} (h : fontFits s = true) (x y : Int) (c : Byte) (mode : Mode) :
    ∃ r, drawChar s x y c mode = some r :=
  Option.ne_none_iff_exists'.mp fun hnone => not_glyphReadsFail h c (drawChar_eq_none.mp hnone).2

theorem drawString_of_fits {s : State} (h : fontFits s = true) (x y : Int) (chars : List Byte) (mode : Mode) :
    ∃ ops, drawString s x y chars mode = some ops :=
  Option.ne_none_iff_exists'.mp fun hnone => not_stringReadsFail h x y chars (drawString_eq_none.mp hnone)

theorem not_fontReadsFail {s : State} (h : fontFits s = true) (i : Instr) : ¬ fontReadsFail i s := by
  have widths : ∀ c, ¬ charWidth s c = none := fun c hnone => by
    obtain ⟨_, hw⟩ := charWidth_of_fits h c
    cases hw.symm.trans hnone
  cases i with
  | charWidth ch => exact widths ch
  | drawChar mode ch => exact fun ⟨_, _, hfail⟩ => not_glyphReadsFail h ch hfail
  | drawString mode len => exact not_stringReadsFail h _ _ _
  | drawMarquee len =>
    rintro (⟨c, -, hnone⟩ | hnone | hfail)
    · exact widths c hnone
    · obtain ⟨_, hh⟩ := fontHeight_of_fits h
      cases hh.symm.trans hnone
    · exact not_stringReadsFail h _ _ _ hfail
  | stepMarquee =>
    simp only [fontReadsFail]
    split_ifs
    · exact not_shiftReadsFail h _ _ _ _
    · exact not_shiftReadsFail h _ _ _ _
    · exact not_stringReadsFail h _ _ _
  | _ => exact id

/-- Settles O25. -/
theorem fittingFontNeverFaults : Obligations.FittingFontNeverFaults := fun _ i hi hv hfits =>
  exec_of_fontReads hi hv (not_fontReadsFail hfits i)

/-! ## Strings -/

/-- Settles O27. -/
theorem drawStringCompletes : Obligations.DrawStringCompletes := by
  intro s mode len h hv hfits hh
  obtain ⟨ops, hops⟩ := drawString_of_fits hfits s.a0.toInt s.a1.toInt (textPrefix s len.toNat) mode
  obtain ⟨t, hrun, ht⟩ := performAll_paints (s := { s with cur := [] }) (drawString_paints hops)
  refine ⟨ops, t, hops, (exec_drawString mode len s).trans (issueFont_of_some hv hops), hrun, ht, fun op hop => ?_,
    fun a ha => ?_⟩
  · obtain ⟨h', hh', hplot⟩ := mem_drawString hops hop
    obtain rfl := Option.some.inj (hh.symm.trans hh')
    exact hplot
  · obtain ⟨-, misses⟩ := performAll_frame hrun
    exact misses a ha

/-- The loop of DrawString passes over the code points of width 0 (R171). -/
theorem stringLoop_filter {s : State} (h : fontFits s = true) {x y ht : Int} {mode : Mode} {cs : List Byte} {sw : Int}
    (hon : beforeEdges s.cfg (x + sw) y) : stringLoop s x y ht mode sw cs =
      stringLoop s x y ht mode sw (cs.filter fun c => charWidth s c != some 0) := by
  induction cs generalizing sw with
  | nil => rfl
  | cons c cs ih =>
    obtain ⟨⟨w, glyph⟩, hd⟩ := drawChar_of_fits h (x + sw) y c mode
    obtain ⟨n, hn, rfl⟩ := drawChar_width hon hd
    rcases Nat.eq_zero_or_pos n with rfl | hpos
    · rw [stringLoop_zero hon hd, ih hon, List.filter_cons_of_neg (by simp [hn])]
    · obtain ⟨-, hy⟩ := hon
      rw [List.filter_cons_of_pos (by simp [hn, hpos.ne']), stringLoop_pos hy hpos hd, stringLoop_pos hy hpos hd]
      split_ifs with hleft
      · rfl
      · rw [ih ⟨by omega, hy⟩]

/-- Settles O29. -/
theorem stringSkipsZeroWidth : Obligations.StringSkipsZeroWidth := by
  intro s x y chars mode h
  by_cases hon : beforeEdges s.cfg x y
  · obtain ⟨ht, hh⟩ := fontHeight_of_fits h
    by_cases hin : y + (ht : Int) < 0
    · rw [drawString_above hh hin, drawString_above hh hin]
    · rw [drawString_on hon hh (by omega), drawString_on hon hh (by omega), stringLoop_filter h (by simpa using hon)]
  · rw [drawString_off hon, drawString_off hon]

/-- The plots of a glyph and the separator after it, which ends at column `right`. -/
def glyphAndSeparator (s : State) (x right y : Int) (h : Nat) (mode : Mode) (c : Byte) : List MicroOp :=
  ((drawChar s x y c mode).map Prod.snd).getD [] ++ separatorOps (right - 1) y h

/-- The loop of DrawString over `n` glyphs that have a width, up to the end of the text or the right edge of the grid. -/
theorem stringLoop_layout {s : State} (hfits : fontFits s = true) {x y : Int} {h : Nat} {mode : Mode}
    (hy : y < s.cfg.gridHeight) {cs : List Byte} {sw : Int} {n : Nat} (hx : x + sw < s.cfg.gridWidth) (hn : n ≤ cs.length)
    (hwidth : ∀ c ∈ cs.take n, charWidth s c ≠ some 0) (hon : ∀ k < n, x + sw + stringColumn s cs k < s.cfg.gridWidth)
    (hend : n = cs.length ∨ x + sw + stringColumn s cs n ≥ s.cfg.gridWidth) :
    stringLoop s x y h mode sw cs = some ((List.range n).flatMap fun k => (cs[k]?).elim [] fun c =>
      glyphAndSeparator s (x + sw + stringColumn s cs k) (x + sw + stringColumn s cs (k + 1)) y h mode c) := by
  induction cs generalizing sw n with
  | nil =>
    obtain rfl : n = 0 := Nat.le_zero.mp hn
    rfl
  | cons c cs ih =>
    obtain _ | n := n
    · rcases hend with hend | hend
      · cases hend
      · simp only [stringColumn_zero] at hend
        omega
    · obtain ⟨w, hw⟩ := charWidth_of_fits hfits c
      obtain ⟨⟨w', glyph⟩, hd⟩ := drawChar_of_fits hfits (x + sw) y c mode
      obtain ⟨w'', hw'', rfl⟩ := drawChar_width ⟨hx, hy⟩ hd
      obtain rfl := Option.some.inj (hw.symm.trans hw'')
      have hpos : 0 < w := Nat.pos_of_ne_zero fun hzero => hwidth c (by simp) (hzero ▸ hw)
      have column : ∀ k, x + sw + stringColumn s (c :: cs) (k + 1) = x + (sw + w + 1) + stringColumn s cs k := fun k => by
        rw [stringColumn_succ hw]
        ring
      have first : glyphAndSeparator s (x + sw) (x + (sw + w + 1)) y h mode c =
          glyph ++ separatorOps (x + (sw + w)) y h := by
        rw [glyphAndSeparator, hd, show x + (sw + w + 1) - 1 = x + (sw + w) by ring]
        rfl
      rw [stringLoop_pos hy hpos hd, List.range_succ_eq_map, List.flatMap_cons, List.flatMap_map]
      simp only [List.getElem?_cons_zero, Option.elim_some, List.getElem?_cons_succ, Nat.succ_eq_add_one, column, stringColumn_zero,
        add_zero, first]
      split_ifs with hleft
      · obtain rfl : n = 0 := by
          by_contra hne
          have := hon 1 (by omega)
          rw [column, stringColumn_zero] at this
          omega
        simp
      · rw [ih (by omega) (by simpa using hn) (fun d hd' => hwidth d (by simp [hd']))
          (fun k hk => by rw [← column]; exact hon (k + 1) (by omega))
          (hend.imp (by simp) fun hge => by rw [← column]; exact hge), Option.map_some]

/-- Settles O28. -/
theorem stringLayout : Obligations.StringLayout := by
  intro s x y chars mode h hfits hh
  refine ⟨fun hpast => ?_, fun hx hy hin n hn hwidth hon hend => ?_⟩
  · by_cases hon : beforeEdges s.cfg x y
    · rcases hpast with hx | hy | habove
      · exact absurd hon.1 (by omega)
      · exact absurd hon.2 (by omega)
      · exact drawString_above hh habove
    · exact drawString_off hon
  · rw [drawString_on ⟨hx, hy⟩ hh hin, stringLoop_layout (n := n) hfits hy (by simpa using hx) hn hwidth (by simpa using hon)
      (by simpa using hend), Option.map_some]
    refine congrArg some (congrArg (separatorOps (x - 1) y h ++ ·) (List.flatMap_congr fun k _ => ?_))
    simp only [add_zero]
    cases chars[k]? <;> rfl

end Sys2Proof.Machine
end

section
/-! The marquee (R205 to R207): DRAW_MARQUEE, STEP_MARQUEE, and the period of the single steps. -/

namespace Sys2Proof.Machine

/-! ## DRAW_MARQUEE (R205) -/

/-- The width of a marquee in a fitting font: each code point takes its width and one. -/
theorem marqueeWidth_of_fits {s : State} (h : fontFits s = true) (cs : List Byte) :
    marqueeWidth s cs = some (cs.map fun c => (charWidth s c).getD 0 + 1).sum := by
  induction cs with
  | nil => rfl
  | cons c cs ih =>
    obtain ⟨w, hw⟩ := charWidth_of_fits h c
    simp [marqueeWidth, hw, ih]

theorem textRead_of_textPrefix {s : State} {n k : Nat} (hk : k < (textPrefix s n).length) :
    (textPrefix s n)[k] = textRead s k := by
  simp [textPrefix]

/-- Settles O36. -/
theorem drawMarqueeCompletes : Obligations.DrawMarqueeCompletes := by
  intro s len hwf hv hfits
  obtain ⟨-, height, -, -, h3, -⟩ := fontFits_cases hfits
  obtain ⟨draw, hdraw⟩ := drawString_of_fits hfits s.a0.toInt s.a1.toInt (textPrefix s len.toNat) .normal
  have hops : startMarqueeOps s len = some (.startMarquee (textPrefix s len.toNat) len
      ((textPrefix s len.toNat).map fun c => (charWidth s c).getD 0 + 1).sum height s.a0.toInt s.a1.toInt :: draw) := by
    simp [startMarqueeOps, marqueeWidth_of_fits hfits, h3, hdraw, argInt, argBits]
  have chars : (textPrefix s len.toNat).take len.toNat = textPrefix s len.toNat := List.take_of_length_le (by simp)
  obtain ⟨t, hrun, ht⟩ := performAll_paints (s := { s with
    cur := [], mqText := Memory.writeList textUnlisted s.mqText 0 (textPrefix s len.toNat), mqLen := len,
    mqWidth := ((textPrefix s len.toNat).map fun c => (charWidth s c).getD 0 + 1).sum, mqHeight := height,
    mqOX := s.a0.toInt, mqOY := s.a1.toInt }) (drawString_paints hdraw)
  obtain ⟨-, misses⟩ := performAll_frame hrun
  refine ⟨_, draw, t, (exec_drawMarquee len s).trans (issueFont_of_some hv hops), hdraw, ?_, ?_, ?_, fun a => ?_, misses⟩
  · refine (performAll_cons ?_).trans hrun
    simp only [perform, chars]
  · rw [ht]
  · rw [ht, fontHeight, h3]
    rfl
  · rw [ht]
    split_ifs with ha
    · have hread := Memory.read_writeList_same (bs := textPrefix s len.toNat) (i := 0) (k := a) (by simpa using ha) hwf
        (by simp [marqueeMax]; omega)
      rw [Nat.zero_add] at hread
      exact hread.trans (textRead_of_textPrefix _)
    · exact Memory.read_writeList_other (.inr (by simpa using ha))

/-! ## STEP_MARQUEE (R206, R207) -/

/-- Settles O37. -/
theorem stepMarqueeCompletes : Obligations.StepMarqueeCompletes := by
  intro s hv hfits nx ny W H ox oy wrapsX wrapsY
  obtain ⟨redraw, hredraw⟩ : ∃ redraw, marqueeRedraw s s.a0.toInt s.a1.toInt ox oy = some redraw := by
    have hreads := mt stepMarqueeOps_eq_none.mp (not_fontReadsFail hfits .stepMarquee)
    rw [stepMarqueeOps_eq, Option.map_eq_none_iff] at hreads
    exact Option.ne_none_iff_exists'.mp hreads
  have hops := (stepMarqueeOps_eq s).trans (congrArg (Option.map _) hredraw)
  have paints : ∀ op ∈ (if wrapsX then clearOps s.cfg true else []) ++ (if wrapsY then clearOps s.cfg true else []) ++ redraw,
      op.paints s.cfg = true := by
    have clear : ∀ {c : Prop} [Decidable c], ∀ op ∈ (if c then clearOps s.cfg true else []), op.paints s.cfg = true :=
      fun {c} _ op hop => by
        split_ifs at hop
        · exact clearOps_paints op hop
        · cases hop
    simp only [List.mem_append]
    rintro op ((hop | hop) | hop)
    · exact clear op hop
    · exact clear op hop
    · exact marqueeRedraw_paints hredraw op hop
  obtain ⟨t, hrun, ht⟩ := performAll_paints (s := { s with cur := [], mqOX := ox, mqOY := oy }) paints
  refine ⟨redraw, { t with result := if wrapsX ∨ wrapsY then 1#32 else 0#32 }, fun hslow => ?_, fun hfast hy hx => ?_,
    fun hfast hy hx => ?_, (exec_stepMarquee s).trans (issueFont_of_some hv hops), ?_, ?_, fun a hX hY ha => ?_⟩
  · rwa [marqueeRedraw, if_neg fun ⟨hf, hy, hx⟩ => hslow ⟨hf, hy, .inl hx⟩,
      if_neg fun ⟨hf, hy, hx⟩ => hslow ⟨hf, hy, .inr hx⟩] at hredraw
  · rwa [marqueeRedraw, if_pos ⟨hfast, hy, hx⟩] at hredraw
  · rwa [marqueeRedraw, if_neg fun ⟨_, _, hx'⟩ => by omega, if_pos ⟨hfast, hy, hx⟩] at hredraw
  · exact (performAll_cons rfl).trans (performAll_then_result _ hrun)
  · rw [ht]
  · obtain ⟨-, misses⟩ := performAll_frame hrun
    exact misses a (by simpa [hX, hY] using ha)

/-! ## The period (R207) -/

theorem wrapAxis_fst (offset extent limit : Int) : (wrapAxis offset extent limit).1 = wrapped offset extent limit := by
  rw [wrapAxis_eq]

theorem wrapAxis_snd (offset extent limit : Int) :
    (wrapAxis offset extent limit).2 = decide (offset < -extent ∨ offset > limit) := by
  rw [wrapAxis_eq]

/-- Stepped by -1 from the right edge, the offset falls by one a step until it is the width past the left edge. -/
theorem iterate_stepLeft (width limit : Nat) : ∀ n ≤ limit + width,
    (fun o => (wrapAxis (o + -1) width limit).1)^[n] (limit : Int) = limit - n
  | 0, _ => by simp
  | n + 1, hn => by
    rw [Function.iterate_succ_apply', iterate_stepLeft width limit n (by omega)]
    simp only [wrapAxis_fst, wrapped]
    split_ifs <;> omega

/-- Stepped by +1 from the width past the left edge, the offset rises by one a step until it is at the right edge. -/
theorem iterate_stepRight (width limit : Nat) : ∀ n ≤ limit + width,
    (fun o => (wrapAxis (o + 1) width limit).1)^[n] (-(width : Int)) = n - width
  | 0, _ => by simp
  | n + 1, hn => by
    rw [Function.iterate_succ_apply', iterate_stepRight width limit n (by omega)]
    simp only [wrapAxis_fst, wrapped]
    split_ifs <;> omega

/-- Settles O38: the step after the last of a pass wraps. -/
theorem marqueePeriod : Obligations.MarqueePeriod := by
  intro width limit n hn
  refine ⟨iterate_stepLeft width limit n hn, ?_, ?_, iterate_stepRight width limit n hn, ?_, ?_⟩
  · rw [Function.iterate_succ_apply', iterate_stepLeft width limit _ le_rfl]
    simp only [wrapAxis_fst, wrapped]
    split_ifs <;> omega
  · rw [wrapAxis_snd, decide_eq_decide]
    omega
  · rw [Function.iterate_succ_apply', iterate_stepRight width limit _ le_rfl]
    simp only [wrapAxis_fst, wrapped]
    split_ifs <;> omega
  · rw [wrapAxis_snd, decide_eq_decide]
    omega

end Sys2Proof.Machine
end

section
/-! The fast shifts of the marquee (R208): the byte updates move the pixels of each global row by one column, and one glyph
enters. -/

namespace Sys2Proof.Machine

/-! ## Byte updates in place -/

/-- Updates of different bytes, none of which reads a byte written before it, each leave the byte computed from the first
state. -/
theorem performAll_updates {op : Nat → MicroOp} {new : State → Nat → Byte}
    (hop : ∀ u i, perform (op i) u = checkedFbWrite u i (new u i)) : ∀ {l : List Nat} {s : State}, s.fbWf →
      (∀ i ∈ l, i < s.cfg.fbBytes) → l.Nodup → l.Pairwise (fun i j => ∀ u v, new (fbWrite u i v) j = new u j) →
      ∃ t, performAll (l.map op) s = .next t ∧ t = { s with fb := t.fb } ∧ (∀ a ∈ l, fbRead t a = new s a) ∧
        ∀ a ∉ l, fbRead t a = fbRead s a := by
  intro l
  induction l with
  | nil => exact fun _ _ _ _ => ⟨_, rfl, rfl, fun _ h => absurd h List.not_mem_nil, fun _ _ => rfl⟩
  | cons i l ih =>
    intro s hwf hlt hnodup hind
    obtain ⟨hi, hlt⟩ := List.forall_mem_cons.mp hlt
    obtain ⟨hnotin, hnodup⟩ := List.nodup_cons.mp hnodup
    obtain ⟨hfirst, hind⟩ := List.pairwise_cons.mp hind
    have hstep : perform (op i) s = .next (fbWrite s i (new s i)) :=
      (hop s i).trans (checkedFbWrite_eq_next.mpr ⟨hi, rfl⟩)
    obtain ⟨t, hrun, ht, hnew, hold⟩ := ih (perform_fbWf hstep hwf) hlt hnodup hind
    refine ⟨t, (performAll_cons hstep).trans hrun, ht, List.forall_mem_cons.mpr ⟨?_, fun a ha => ?_⟩, fun a ha => ?_⟩
    · rw [hold i hnotin, fbRead_fbWrite_same hwf]
    · rw [hnew a ha, hfirst a ha]
    · obtain ⟨hne, ha⟩ := List.ne_and_not_mem_of_not_mem_cons ha
      rw [hold a ha, fbRead_fbWrite_other s _ (Ne.symm hne)]

theorem shiftedLeft_fbWrite {u : State} {i j : Nat} (v : Byte) (h : i < j) :
    shiftedLeft (fbWrite u i v) j = shiftedLeft u j := by
  rw [shiftedLeft, shiftedLeft, fbRead_fbWrite_other u v h.ne, fbRead_fbWrite_other u v (h.trans (Nat.lt_succ_self j)).ne]
  rfl

theorem shiftedRight_fbWrite {u : State} {i j : Nat} (v : Byte) (h : j < i) :
    shiftedRight (fbWrite u i v) j = shiftedRight u j := by
  rw [shiftedRight, shiftedRight, fbRead_fbWrite_other u v h.ne', fbRead_fbWrite_other u v (by omega)]
  rfl

/-- The byte updates of ShiftLeft: each byte reads only itself and the next one, which is updated after it. -/
theorem performAll_shiftLeft {s : State} (h : s.fbWf) :
    ∃ t, performAll ((List.range s.cfg.fbBytes).map .shiftLeftByte) s = .next t ∧ t = { s with fb := t.fb } ∧
      ∀ a < s.cfg.fbBytes, fbRead t a = shiftedLeft s a := by
  obtain ⟨t, hrun, ht, hnew, -⟩ := performAll_updates (op := .shiftLeftByte) (new := shiftedLeft) (fun _ _ => rfl) h
    (fun i => List.mem_range.mp) List.nodup_range (List.pairwise_lt_range.imp fun hlt _ v => shiftedLeft_fbWrite v hlt)
  exact ⟨t, hrun, ht, fun a ha => hnew a (List.mem_range.mpr ha)⟩

/-- The byte updates of ShiftRight: each byte reads only itself and the one before, which is updated after it. -/
theorem performAll_shiftRight {s : State} (h : s.fbWf) :
    ∃ t, performAll ((List.range s.cfg.fbBytes).reverse.map .shiftRightByte) s = .next t ∧ t = { s with fb := t.fb } ∧
      ∀ a < s.cfg.fbBytes, fbRead t a = shiftedRight s a := by
  obtain ⟨t, hrun, ht, hnew, -⟩ := performAll_updates (op := .shiftRightByte) (new := shiftedRight) (fun _ _ => rfl) h
    (fun i hi => List.mem_range.mp (List.mem_reverse.mp hi)) (List.nodup_reverse.mpr List.nodup_range)
    (List.pairwise_reverse.mpr (List.pairwise_lt_range.imp fun hlt _ v => shiftedRight_fbWrite v hlt))
  exact ⟨t, hrun, ht, fun a ha => hnew a (List.mem_reverse.mpr (List.mem_range.mpr ha))⟩

/-! ## The bits of a shifted byte -/

theorem getLsbD_shiftedLeft_zero (s : State) (i : Nat) : (shiftedLeft s i).getLsbD 0 =
    if i % s.cfg.globalRowBytes = s.cfg.globalRowBytes - 1 then true else (fbRead s (i + 1)).getLsbD 7 := by
  unfold shiftedLeft
  split_ifs <;> simp

theorem getLsbD_shiftedLeft_succ (s : State) (i : Nat) {j : Nat} (hj : j < 7) :
    (shiftedLeft s i).getLsbD (j + 1) = (fbRead s i).getLsbD j := by
  have kept : (fbRead s i <<< 1).getLsbD (j + 1) = (fbRead s i).getLsbD j := by
    rw [BitVec.getLsbD_shiftLeft, decide_eq_true (show j + 1 < 8 by omega)]
    simp
  have low : ∀ b : Byte, (b >>> 7).getLsbD (j + 1) = false := fun b => by
    rw [BitVec.getLsbD_ushiftRight]
    exact BitVec.getLsbD_of_ge _ _ (by omega)
  rw [shiftedLeft, BitVec.getLsbD_or, kept]
  split_ifs
  · simp
  · rw [low, Bool.or_false]

theorem getLsbD_shiftedRight_seven (s : State) (i : Nat) : (shiftedRight s i).getLsbD 7 =
    if i % s.cfg.globalRowBytes = 0 then true else (fbRead s (i - 1)).getLsbD 0 := by
  unfold shiftedRight
  split_ifs <;> simp

theorem getLsbD_shiftedRight_lt (s : State) (i : Nat) {j : Nat} (hj : j < 7) :
    (shiftedRight s i).getLsbD j = (fbRead s i).getLsbD (j + 1) := by
  have high : (0x80#8).getLsbD j = false := by interval_cases j <;> rfl
  unfold shiftedRight
  split_ifs <;> simp [high, hj, Nat.add_comm 1 j]

/-! ## The pixels of a shifted row -/

/-- The byte of a pixel (R63). -/
def byteIndex (c : Config) (x y : Nat) : Nat := x / 8 + c.globalRowBytes * (y / 16) + y % 16 * c.rowBytes

theorem pixelLit_natCast {s : State} {x y : Nat} (hx : x < s.cfg.gridWidth) (hy : y < s.cfg.gridHeight) :
    pixelLit s x y = some (!(fbRead s (byteIndex s.cfg x y)).getLsbD (7 - x % 8)) := by
  refine pixelLit_of_pixelAddr (by omega) ?_
  rw [pixelAddr_of_lt hx hy, pixelMask_eq_twoPow (Nat.mod_lt x (by decide))]
  rfl

theorem byteIndex_lt {c : Config} {x y : Nat} (hx : x < c.gridWidth) (hy : y < c.gridHeight) : byteIndex c x y < c.fbBytes :=
  pixelAddr_lt (pixelAddr_of_lt hx hy)

/-- The byte of a pixel stands in its global row as the pixel's column does. -/
theorem byteIndex_mod {c : Config} {x : Nat} (hx : x < c.gridWidth) (y : Nat) :
    byteIndex c x y % c.globalRowBytes = x / 8 := by
  have rows : byteIndex c x y = x / 8 + c.globalRowBytes * (y / 16 + y % 16 * c.hp) := by
    simp only [byteIndex, Config.rowBytes, Config.panels, Config.globalRowBytes]
    ring
  simp only [Config.gridWidth, panelWidth] at hx
  rw [rows, Nat.add_mul_mod_self_left, Nat.mod_eq_of_lt]
  rw [Config.globalRowBytes]
  omega

/-- A row of shifted bytes shows the pixel to the right, and the last column dark. -/
theorem pixelLit_shiftedLeft {s t : State} (hcfg : t.cfg = s.cfg) (hfb : ∀ a < s.cfg.fbBytes, fbRead t a = shiftedLeft s a)
    {x y : Nat} (hx : x < s.cfg.gridWidth) (hy : y < s.cfg.gridHeight) :
    pixelLit t x y = if x + 1 = s.cfg.gridWidth then some false else pixelLit s (x + 1 : Nat) y := by
  have hmod := byteIndex_mod hx y
  have hwidth : s.cfg.gridWidth = 8 * s.cfg.globalRowBytes := by
    simp only [Config.gridWidth, panelWidth, Config.globalRowBytes]
    omega
  rw [pixelLit_natCast (hcfg ▸ hx) (hcfg ▸ hy), hcfg, hfb _ (byteIndex_lt hx hy)]
  by_cases hbit : x % 8 = 7
  · rw [hbit, getLsbD_shiftedLeft_zero, hmod]
    by_cases hlast : x + 1 = s.cfg.gridWidth
    · rw [if_pos (by omega), if_pos hlast]
      rfl
    · have next : byteIndex s.cfg (x + 1) y = byteIndex s.cfg x y + 1 := by
        simp only [byteIndex]
        omega
      rw [if_neg (by omega), if_neg hlast, pixelLit_natCast (by omega) hy, next, show (x + 1) % 8 = 0 by omega]
  · have same : byteIndex s.cfg (x + 1) y = byteIndex s.cfg x y := by
      simp only [byteIndex]
      omega
    rw [if_neg (by omega), pixelLit_natCast (by omega) hy, same, show 7 - x % 8 = 7 - (x + 1) % 8 + 1 by omega,
      getLsbD_shiftedLeft_succ _ _ (by omega)]

/-- A row of shifted bytes shows the pixel to the left, and the first column dark. -/
theorem pixelLit_shiftedRight {s t : State} (hcfg : t.cfg = s.cfg) (hfb : ∀ a < s.cfg.fbBytes, fbRead t a = shiftedRight s a)
    {x y : Nat} (hx : x < s.cfg.gridWidth) (hy : y < s.cfg.gridHeight) :
    pixelLit t x y = if x = 0 then some false else pixelLit s (x - 1 : Nat) y := by
  have hmod := byteIndex_mod hx y
  rw [pixelLit_natCast (hcfg ▸ hx) (hcfg ▸ hy), hcfg, hfb _ (byteIndex_lt hx hy)]
  by_cases hbit : x % 8 = 0
  · rw [hbit, getLsbD_shiftedRight_seven, hmod]
    by_cases hfirst : x = 0
    · rw [if_pos (by omega), if_pos hfirst]
      rfl
    · have before : byteIndex s.cfg (x - 1) y = byteIndex s.cfg x y - 1 := by
        simp only [byteIndex]
        omega
      rw [if_neg (by omega), if_neg hfirst, pixelLit_natCast (by omega) hy, before, show (x - 1) % 8 = 7 by omega]
  · have same : byteIndex s.cfg (x - 1) y = byteIndex s.cfg x y := by
      simp only [byteIndex]
      omega
    rw [if_neg (by omega), pixelLit_natCast (by omega) hy, same, getLsbD_shiftedRight_lt _ _ (by omega),
      show 7 - x % 8 + 1 = 7 - (x - 1) % 8 by omega]

/-! ## The glyph that enters -/

theorem entersAt_iff {s : State} {reaches : Int → Bool} {ox : Int} {cs : List Byte} {k : Nat} :
    entersAt s reaches ox cs k ↔
      (∃ c w, cs[k]? = some c ∧ charWidth s c = some w ∧ reaches (ox + stringColumn s cs k + w) = true) ∧
        shortBefore s reaches ox cs k := Iff.rfl

theorem entersAt_zero {s : State} {c : Byte} {w : Nat} (hw : charWidth s c = some w) {reaches : Int → Bool} {ox : Int}
    {cs : List Byte} : entersAt s reaches ox (c :: cs) 0 ↔ reaches (ox + w) = true := by
  simp [entersAt_iff, shortBefore_zero, hw]

theorem entersAt_succ {s : State} {c : Byte} {w : Nat} (hw : charWidth s c = some w) {reaches : Int → Bool} {ox : Int}
    {cs : List Byte} {k : Nat} : entersAt s reaches ox (c :: cs) (k + 1) ↔
      reaches (ox + w) = false ∧ entersAt s reaches (ox + w + 1) cs k := by
  rw [entersAt_iff, entersAt_iff, shortBefore_succ hw, add_stringColumn_succ hw, List.getElem?_cons_succ]
  exact and_left_comm

/-- The glyph that enters is drawn at its column. -/
theorem drawEntering_of_entersAt {s : State} (h : fontFits s = true) {reaches : Int → Bool} {ox oy : Int} {cs : List Byte}
    {k : Nat} {c : Byte} (hk : entersAt s reaches ox cs k) (hc : cs[k]? = some c) :
    drawEntering s reaches ox oy cs =
      some (((drawChar s (ox + stringColumn s cs k) oy c .normal).map Prod.snd).getD []) := by
  induction cs generalizing ox k with
  | nil => simp at hc
  | cons d cs ih =>
    obtain ⟨w, hw⟩ := charWidth_of_fits h d
    cases k with
    | zero =>
      obtain rfl := Option.some.inj hc
      obtain ⟨r, hr⟩ := drawChar_of_fits h ox oy d .normal
      rw [drawEntering_reaches hw ((entersAt_zero hw).mp hk), stringColumn_zero, add_zero, hr]
      rfl
    | succ k =>
      obtain ⟨hshort, hk⟩ := (entersAt_succ hw).mp hk
      rw [drawEntering_short hw hshort, ih hk hc, add_stringColumn_succ hw]

/-- With no glyph that enters, nothing is drawn. -/
theorem drawEntering_of_none {s : State} (h : fontFits s = true) {reaches : Int → Bool} {ox oy : Int} {cs : List Byte}
    (hnone : ∀ k, ¬ entersAt s reaches ox cs k) : drawEntering s reaches ox oy cs = some [] := by
  induction cs generalizing ox with
  | nil => exact drawEntering_nil ..
  | cons d cs ih =>
    obtain ⟨w, hw⟩ := charWidth_of_fits h d
    have hshort : reaches (ox + w) = false := Bool.eq_false_iff.mpr (mt (entersAt_zero hw).mpr (hnone 0))
    rw [drawEntering_short hw hshort]
    exact ih fun k hk => hnone (k + 1) ((entersAt_succ hw).mpr ⟨hshort, hk⟩)

theorem shiftLeftOps_of_drawEntering {s : State} {ox oy : Int} {cs : List Byte} {glyph : List MicroOp}
    (h : drawEntering s (fun e => decide (e ≥ s.cfg.gridWidth)) ox oy cs = some glyph) :
    shiftLeftOps s ox oy cs = some ((List.range s.cfg.fbBytes).map .shiftLeftByte ++ glyph) := by
  rw [shiftLeftOps, h]
  rfl

theorem shiftRightOps_of_drawEntering {s : State} {ox oy : Int} {cs : List Byte} {glyph : List MicroOp}
    (h : drawEntering s (fun e => decide (e ≥ 0)) ox oy cs = some glyph) :
    shiftRightOps s ox oy cs = some ((List.range s.cfg.fbBytes).reverse.map .shiftRightByte ++ glyph) := by
  rw [shiftRightOps, h]
  rfl

/-- Settles O39. -/
theorem fastShiftMovesPixels : Obligations.FastShiftMovesPixels := by
  refine ⟨fun s hwf => ⟨?_, ?_⟩, fun s ox oy chars hfits => ⟨fun k c hk hc => ?_, fun hnone => ?_, fun k c hk hc => ?_,
    fun hnone => ?_⟩⟩
  · obtain ⟨t, hrun, ht, hfb⟩ := performAll_shiftLeft hwf
    refine ⟨t, hrun, ht, fun x y hx hy hxw hyh => ?_⟩
    lift x to ℕ using hx
    lift y to ℕ using hy
    exact_mod_cast pixelLit_shiftedLeft (by rw [ht]) hfb (x := x) (y := y) (by omega) (by omega)
  · obtain ⟨t, hrun, ht, hfb⟩ := performAll_shiftRight hwf
    refine ⟨t, hrun, ht, fun x y hx hy hxw hyh => ?_⟩
    lift x to ℕ using hx
    lift y to ℕ using hy
    rw [pixelLit_shiftedRight (by rw [ht]) hfb (x := x) (y := y) (by omega) (by omega)]
    by_cases hzero : x = 0
    · rw [if_pos hzero, if_pos (by omega)]
    · rw [if_neg hzero, if_neg (by omega), Nat.cast_pred (by omega)]
  · exact shiftLeftOps_of_drawEntering (drawEntering_of_entersAt hfits hk hc)
  · rw [shiftLeftOps_of_drawEntering (drawEntering_of_none hfits hnone), List.append_nil]
  · exact shiftRightOps_of_drawEntering (drawEntering_of_entersAt hfits hk hc)
  · rw [shiftRightOps_of_drawEntering (drawEntering_of_none hfits hnone), List.append_nil]

end Sys2Proof.Machine
end
